-- ==== Sys2Proof/Word.lean ====
section
/-! DEFINITION. The two bit-pattern widths of CORE: the 32-bit instruction word (R8, R50) and the 64-bit
Register File slot (R8, R24). -/

namespace Sys2Proof

/-- A 32-bit machine word, bit 31 the most significant (R9, R43). -/
abbrev Word := BitVec 32

/-- The 64-bit pattern a Register File slot holds (R24). -/
abbrev DWord := BitVec 64

end Sys2Proof
end

