-- ==== Sys2Proof/Config.lean ====
section
/-! DEFINITION. What the spec leaves OPEN or draws freely (R8; 92_eei_decisions.md D9, D15, D23). The constants below
have no body, so a theorem about the model holds whatever they are. P_INIT_RF (D21) is an argument of
`Machine.State.start`. -/

namespace Sys2Proof

/-- The two settings of the parameter P_W32_HI (R8, R85): what a 32-bit result does to bits 63:32 of its destination. -/
inductive W32Hi where
  /-- the upper half keeps its bits -/
  | preserve
  /-- the upper half takes 32 copies of bit 31 of the result -/
  | sext
deriving DecidableEq, Repr, Inhabited

/-- P_W32_HI, OPEN (R85, D9); log entry 7. -/
opaque Config.w32Hi : W32Hi

/-- P_DIV0_HI, the 64-bit draw written to `hi` by the n-th division by zero of a run (R101, D15: a free input of each
such step); log entry 8. -/
opaque Config.div0Hi : Nat → DWord

/-- P_MEM_SIZE, the size of the out-of-scope data memory (R42, D23); read by no rule and by no definition of the
model; log entry 9. -/
opaque Config.memSize : Nat

end Sys2Proof
end

