-- ==== Sys2Proof/Syntax.lean ====
section
/-! DEFINITION. The types of a decoded instruction: register identifiers (R21, R22, R35), the five closed sets (R63 to
R67), the four shapes (R51) and `Instr`, one constructor per row of spec/opcode_table.json. -/

namespace Sys2Proof

/-- A Register identifier: the closed enumeration of 34 values of R21, `r0` to `r31` at 0 to 31, `lo` at 32, `hi` at 33
(D27; R34 allows `Fin 34`). -/
abbrev Register := Fin 34

/-! Register names (R22) and the two special slots (R21). -/

abbrev Register.zero : Register := 0
abbrev Register.at_ : Register := 1
abbrev Register.v0 : Register := 2
abbrev Register.v1 : Register := 3
abbrev Register.a0 : Register := 4
abbrev Register.a1 : Register := 5
abbrev Register.a2 : Register := 6
abbrev Register.a3 : Register := 7
abbrev Register.t0 : Register := 8
abbrev Register.t1 : Register := 9
abbrev Register.t2 : Register := 10
abbrev Register.t3 : Register := 11
abbrev Register.t4 : Register := 12
abbrev Register.t5 : Register := 13
abbrev Register.t6 : Register := 14
abbrev Register.t7 : Register := 15
abbrev Register.s0 : Register := 16
abbrev Register.s1 : Register := 17
abbrev Register.s2 : Register := 18
abbrev Register.s3 : Register := 19
abbrev Register.s4 : Register := 20
abbrev Register.s5 : Register := 21
abbrev Register.s6 : Register := 22
abbrev Register.s7 : Register := 23
abbrev Register.t8 : Register := 24
abbrev Register.t9 : Register := 25
abbrev Register.k0 : Register := 26
abbrev Register.k1 : Register := 27
abbrev Register.gp : Register := 28
abbrev Register.sp : Register := 29
abbrev Register.fp : Register := 30
abbrev Register.ra : Register := 31
abbrev Register.lo : Register := 32
abbrev Register.hi : Register := 33

/-- A floating-point register identifier `f0` to `f31`; an identifier only, with no storage (R35). -/
abbrev FPRegister := Fin 32

/-- The closed R-type function set of SPECIAL (R64). -/
inductive RFunc where
  | sll | srl | sra | sllv | srlv | srav | jr | jalr
  | syscall | break_ | sync | mfhi | mthi | mflo | mtlo | dsllv
  | dsrlv | dsrav | mult | multu | div | divu | dmult | dmultu
  | ddiv | ddivu | add | addu | sub | subu | and | or
  | xor | nor | slt | sltu | dadd | daddu | dsub | dsubu
  | tge | tgeu | tlt | tltu | teq | tne | dsll | dsrl
  | dsra | dsll32 | dsrl32 | dsra32
deriving DecidableEq, Repr

/-- The closed set of I-class primary opcodes (R62, R63); REGIMM is one of them. -/
inductive IOpcode where
  | regimm | beq | bne | blez | bgtz | addi | addiu | slti
  | sltiu | andi | ori | xori | lui | beql | bnel | blezl
  | bgtzl | daddi | daddiu | ldl | ldr | lb | lh | lwl
  | lw | lbu | lhu | lwr | lwu | sb | sh | swl
  | sw | sdl | sdr | swr | ll | lwc1 | lld | ldc1
  | ld | sc | swc1 | scd | sdc1 | sd
deriving DecidableEq, Repr

/-- The two J-class primary opcodes (R54, R63). -/
inductive JOpcode where
  | j | jal
deriving DecidableEq, Repr

/-- The closed primary-opcode set (R63), split by format class so that the four classes partition it (R62). -/
inductive Opcode where
  | special | cop1 | j (op : JOpcode) | i (op : IOpcode)
deriving DecidableEq, Repr

/-- The closed REGIMM code set (R65). -/
inductive RegimmCode where
  | bltz | bgez | bltzl | bgezl | tgei | tgeiu | tlti | tltiu
  | teqi | tnei | bltzal | bgezal | bltzall | bgezall
deriving DecidableEq, Repr

/-- The four arithmetic COP1 formats (R60, R66). -/
inductive ArithFmt where
  | s | d | w | l
deriving DecidableEq, Repr

/-- The closed COP1 format set (R66): six move formats, BC, and the arithmetic formats. -/
inductive Cop1Fmt where
  | mf | dmf | cf | mt | dmt | ct | bc | arith (fmt : ArithFmt)
deriving DecidableEq, Repr

/-- The closed COP1 function set (R67). -/
inductive Cop1Func where
  | add | sub | mul | div | sqrt | abs | mov | neg
  | roundL | truncL | ceilL | floorL | roundW | truncW | ceilW | floorW
  | cvtS | cvtD | cvtW | cvtL | cF | cUn | cEq | cUeq
  | cOlt | cUlt | cOle | cUle | cSf | cNgle | cSeq | cNgl
  | cLt | cNge | cLe | cNgt
deriving DecidableEq, Repr

/-- The FR-format field `func` (R51, R60): a name for an arithmetic format, the raw bits otherwise. -/
inductive FrFunc where
  | named (func : Cop1Func)
  | raw (bits : BitVec 6)
deriving DecidableEq, Repr

/-- The decoded Instruction as the spec's tagged union of four shapes (R51), with the fields of R52 to R61. `opcode` is
SPECIAL in `r` and COP1 in `fr`; `imm` and `immUs` are the two 32-bit forms of bits 15:0 (R57). -/
inductive Shape where
  | r (rs rt rd : Register) (shamt : BitVec 5) (func : RFunc)
  | fr (fmt : Cop1Fmt) (ft fs fd : FPRegister) (func : FrFunc) (nd tf : Option Bool)
  | j (opcode : JOpcode) (addr : BitVec 26)
  | i (opcode : IOpcode) (rs rt : Register) (imm immUs : BitVec 32) (regimm : Option RegimmCode)
deriving DecidableEq, Repr

/-- The field names an `UnknownEncoding` carries (R70). -/
inductive FieldName where
  | opcode | func | regimm | fmt | cop1Func
deriving DecidableEq, Repr

/-- The spec's spelling of a field name (R70). -/
def FieldName.text : FieldName → String
  | .opcode => "opcode"
  | .func => "func"
  | .regimm => "regimm"
  | .fmt => "fmt"
  | .cop1Func => "cop1_func"

/-- The instructions of spec/opcode_table.json, one constructor per row, in the table's order, with the fields the row
leaves free. Fields the architecture wants zero are kept, since the decoder does not check them (R74). The immediate is
the 16-bit field (its two forms are R57's); a BC1 word keeps `cc` (bits 20:18) and the offset, from which `ft`, `fs`,
`fd` and `func` are recovered (R60, R68); a REGIMM word's `rt` is its code (R61). -/
inductive Instr where
  /-- SLL, R107. -/
  | sll (rs rt rd : Register) (shamt : BitVec 5)
  /-- SRL, R108. -/
  | srl (rs rt rd : Register) (shamt : BitVec 5)
  /-- SRA, R109. -/
  | sra (rs rt rd : Register) (shamt : BitVec 5)
  /-- SLLV, R110. -/
  | sllv (rs rt rd : Register) (shamt : BitVec 5)
  /-- SRLV, R111. -/
  | srlv (rs rt rd : Register) (shamt : BitVec 5)
  /-- SRAV, R112. -/
  | srav (rs rt rd : Register) (shamt : BitVec 5)
  /-- JR, R113. -/
  | jr (rs rt rd : Register) (shamt : BitVec 5)
  /-- JALR, R114. -/
  | jalr (rs rt rd : Register) (shamt : BitVec 5)
  /-- SYSCALL, R115. -/
  | syscall (rs rt rd : Register) (shamt : BitVec 5)
  /-- BREAK, R116. -/
  | break_ (rs rt rd : Register) (shamt : BitVec 5)
  /-- SYNC, R117. -/
  | sync (rs rt rd : Register) (shamt : BitVec 5)
  /-- MFHI, R118. -/
  | mfhi (rs rt rd : Register) (shamt : BitVec 5)
  /-- MTHI, R119. -/
  | mthi (rs rt rd : Register) (shamt : BitVec 5)
  /-- MFLO, R120. -/
  | mflo (rs rt rd : Register) (shamt : BitVec 5)
  /-- MTLO, R121. -/
  | mtlo (rs rt rd : Register) (shamt : BitVec 5)
  /-- DSLLV, R122. -/
  | dsllv (rs rt rd : Register) (shamt : BitVec 5)
  /-- DSRLV, R123. -/
  | dsrlv (rs rt rd : Register) (shamt : BitVec 5)
  /-- DSRAV, R124. -/
  | dsrav (rs rt rd : Register) (shamt : BitVec 5)
  /-- MULT, R125. -/
  | mult (rs rt rd : Register) (shamt : BitVec 5)
  /-- MULTU, R126. -/
  | multu (rs rt rd : Register) (shamt : BitVec 5)
  /-- DIV, R102. -/
  | div (rs rt rd : Register) (shamt : BitVec 5)
  /-- DIVU, R103. -/
  | divu (rs rt rd : Register) (shamt : BitVec 5)
  /-- DMULT, R127. -/
  | dmult (rs rt rd : Register) (shamt : BitVec 5)
  /-- DMULTU, R128. -/
  | dmultu (rs rt rd : Register) (shamt : BitVec 5)
  /-- DDIV, R104. -/
  | ddiv (rs rt rd : Register) (shamt : BitVec 5)
  /-- DDIVU, R105. -/
  | ddivu (rs rt rd : Register) (shamt : BitVec 5)
  /-- ADD, R91. -/
  | add (rs rt rd : Register) (shamt : BitVec 5)
  /-- ADDU, R93. -/
  | addu (rs rt rd : Register) (shamt : BitVec 5)
  /-- SUB, R129. -/
  | sub (rs rt rd : Register) (shamt : BitVec 5)
  /-- SUBU, R130. -/
  | subu (rs rt rd : Register) (shamt : BitVec 5)
  /-- AND, R131. -/
  | and (rs rt rd : Register) (shamt : BitVec 5)
  /-- OR, R132. -/
  | or (rs rt rd : Register) (shamt : BitVec 5)
  /-- XOR, R133. -/
  | xor (rs rt rd : Register) (shamt : BitVec 5)
  /-- NOR, R134. -/
  | nor (rs rt rd : Register) (shamt : BitVec 5)
  /-- SLT, R135. -/
  | slt (rs rt rd : Register) (shamt : BitVec 5)
  /-- SLTU, R136. -/
  | sltu (rs rt rd : Register) (shamt : BitVec 5)
  /-- DADD, R95. -/
  | dadd (rs rt rd : Register) (shamt : BitVec 5)
  /-- DADDU, R97. -/
  | daddu (rs rt rd : Register) (shamt : BitVec 5)
  /-- DSUB, R137. -/
  | dsub (rs rt rd : Register) (shamt : BitVec 5)
  /-- DSUBU, R138. -/
  | dsubu (rs rt rd : Register) (shamt : BitVec 5)
  /-- TGE, R139. -/
  | tge (rs rt rd : Register) (shamt : BitVec 5)
  /-- TGEU, R140. -/
  | tgeu (rs rt rd : Register) (shamt : BitVec 5)
  /-- TLT, R141. -/
  | tlt (rs rt rd : Register) (shamt : BitVec 5)
  /-- TLTU, R142. -/
  | tltu (rs rt rd : Register) (shamt : BitVec 5)
  /-- TEQ, R143. -/
  | teq (rs rt rd : Register) (shamt : BitVec 5)
  /-- TNE, R144. -/
  | tne (rs rt rd : Register) (shamt : BitVec 5)
  /-- DSLL, R145. -/
  | dsll (rs rt rd : Register) (shamt : BitVec 5)
  /-- DSRL, R146. -/
  | dsrl (rs rt rd : Register) (shamt : BitVec 5)
  /-- DSRA, R147. -/
  | dsra (rs rt rd : Register) (shamt : BitVec 5)
  /-- DSLL32, R148. -/
  | dsll32 (rs rt rd : Register) (shamt : BitVec 5)
  /-- DSRL32, R149. -/
  | dsrl32 (rs rt rd : Register) (shamt : BitVec 5)
  /-- DSRA32, R150. -/
  | dsra32 (rs rt rd : Register) (shamt : BitVec 5)
  /-- MFC1, R152. -/
  | mfc1 (ft fs fd : FPRegister) (func : BitVec 6)
  /-- DMFC1, R153. -/
  | dmfc1 (ft fs fd : FPRegister) (func : BitVec 6)
  /-- CFC1, R154. -/
  | cfc1 (ft fs fd : FPRegister) (func : BitVec 6)
  /-- MTC1, R155. -/
  | mtc1 (ft fs fd : FPRegister) (func : BitVec 6)
  /-- DMTC1, R156. -/
  | dmtc1 (ft fs fd : FPRegister) (func : BitVec 6)
  /-- CTC1, R157. -/
  | ctc1 (ft fs fd : FPRegister) (func : BitVec 6)
  /-- BC1F, R158. -/
  | bc1f (cc : BitVec 3) (offset : BitVec 16)
  /-- BC1T, R159. -/
  | bc1t (cc : BitVec 3) (offset : BitVec 16)
  /-- BC1FL, R160. -/
  | bc1fl (cc : BitVec 3) (offset : BitVec 16)
  /-- BC1TL, R161. -/
  | bc1tl (cc : BitVec 3) (offset : BitVec 16)
  /-- ADD.fmt, R162. -/
  | addFmt (fmt : ArithFmt) (ft fs fd : FPRegister)
  /-- SUB.fmt, R163. -/
  | subFmt (fmt : ArithFmt) (ft fs fd : FPRegister)
  /-- MUL.fmt, R164. -/
  | mulFmt (fmt : ArithFmt) (ft fs fd : FPRegister)
  /-- DIV.fmt, R165. -/
  | divFmt (fmt : ArithFmt) (ft fs fd : FPRegister)
  /-- SQRT.fmt, R166. -/
  | sqrtFmt (fmt : ArithFmt) (ft fs fd : FPRegister)
  /-- ABS.fmt, R167. -/
  | absFmt (fmt : ArithFmt) (ft fs fd : FPRegister)
  /-- MOV.fmt, R168. -/
  | movFmt (fmt : ArithFmt) (ft fs fd : FPRegister)
  /-- NEG.fmt, R169. -/
  | negFmt (fmt : ArithFmt) (ft fs fd : FPRegister)
  /-- ROUND.L.fmt, R170. -/
  | roundLFmt (fmt : ArithFmt) (ft fs fd : FPRegister)
  /-- TRUNC.L.fmt, R171. -/
  | truncLFmt (fmt : ArithFmt) (ft fs fd : FPRegister)
  /-- CEIL.L.fmt, R172. -/
  | ceilLFmt (fmt : ArithFmt) (ft fs fd : FPRegister)
  /-- FLOOR.L.fmt, R173. -/
  | floorLFmt (fmt : ArithFmt) (ft fs fd : FPRegister)
  /-- ROUND.W.fmt, R174. -/
  | roundWFmt (fmt : ArithFmt) (ft fs fd : FPRegister)
  /-- TRUNC.W.fmt, R175. -/
  | truncWFmt (fmt : ArithFmt) (ft fs fd : FPRegister)
  /-- CEIL.W.fmt, R176. -/
  | ceilWFmt (fmt : ArithFmt) (ft fs fd : FPRegister)
  /-- FLOOR.W.fmt, R177. -/
  | floorWFmt (fmt : ArithFmt) (ft fs fd : FPRegister)
  /-- CVT.S.fmt, R178. -/
  | cvtSFmt (fmt : ArithFmt) (ft fs fd : FPRegister)
  /-- CVT.D.fmt, R179. -/
  | cvtDFmt (fmt : ArithFmt) (ft fs fd : FPRegister)
  /-- CVT.W.fmt, R180. -/
  | cvtWFmt (fmt : ArithFmt) (ft fs fd : FPRegister)
  /-- CVT.L.fmt, R181. -/
  | cvtLFmt (fmt : ArithFmt) (ft fs fd : FPRegister)
  /-- C.F.fmt, R182. -/
  | cFFmt (fmt : ArithFmt) (ft fs fd : FPRegister)
  /-- C.UN.fmt, R183. -/
  | cUnFmt (fmt : ArithFmt) (ft fs fd : FPRegister)
  /-- C.EQ.fmt, R184. -/
  | cEqFmt (fmt : ArithFmt) (ft fs fd : FPRegister)
  /-- C.UEQ.fmt, R185. -/
  | cUeqFmt (fmt : ArithFmt) (ft fs fd : FPRegister)
  /-- C.OLT.fmt, R186. -/
  | cOltFmt (fmt : ArithFmt) (ft fs fd : FPRegister)
  /-- C.ULT.fmt, R187. -/
  | cUltFmt (fmt : ArithFmt) (ft fs fd : FPRegister)
  /-- C.OLE.fmt, R188. -/
  | cOleFmt (fmt : ArithFmt) (ft fs fd : FPRegister)
  /-- C.ULE.fmt, R189. -/
  | cUleFmt (fmt : ArithFmt) (ft fs fd : FPRegister)
  /-- C.SF.fmt, R190. -/
  | cSfFmt (fmt : ArithFmt) (ft fs fd : FPRegister)
  /-- C.NGLE.fmt, R191. -/
  | cNgleFmt (fmt : ArithFmt) (ft fs fd : FPRegister)
  /-- C.SEQ.fmt, R192. -/
  | cSeqFmt (fmt : ArithFmt) (ft fs fd : FPRegister)
  /-- C.NGL.fmt, R193. -/
  | cNglFmt (fmt : ArithFmt) (ft fs fd : FPRegister)
  /-- C.LT.fmt, R194. -/
  | cLtFmt (fmt : ArithFmt) (ft fs fd : FPRegister)
  /-- C.NGE.fmt, R195. -/
  | cNgeFmt (fmt : ArithFmt) (ft fs fd : FPRegister)
  /-- C.LE.fmt, R196. -/
  | cLeFmt (fmt : ArithFmt) (ft fs fd : FPRegister)
  /-- C.NGT.fmt, R197. -/
  | cNgtFmt (fmt : ArithFmt) (ft fs fd : FPRegister)
  /-- J, R199. -/
  | j (addr : BitVec 26)
  /-- JAL, R200. -/
  | jal (addr : BitVec 26)
  /-- BEQ, R202. -/
  | beq (rs rt : Register) (imm : BitVec 16)
  /-- BNE, R203. -/
  | bne (rs rt : Register) (imm : BitVec 16)
  /-- BLEZ, R204. -/
  | blez (rs rt : Register) (imm : BitVec 16)
  /-- BGTZ, R205. -/
  | bgtz (rs rt : Register) (imm : BitVec 16)
  /-- ADDI, R92. -/
  | addi (rs rt : Register) (imm : BitVec 16)
  /-- ADDIU, R94. -/
  | addiu (rs rt : Register) (imm : BitVec 16)
  /-- SLTI, R206. -/
  | slti (rs rt : Register) (imm : BitVec 16)
  /-- SLTIU, R207. -/
  | sltiu (rs rt : Register) (imm : BitVec 16)
  /-- ANDI, R208. -/
  | andi (rs rt : Register) (imm : BitVec 16)
  /-- ORI, R209. -/
  | ori (rs rt : Register) (imm : BitVec 16)
  /-- XORI, R210. -/
  | xori (rs rt : Register) (imm : BitVec 16)
  /-- LUI, R211. -/
  | lui (rs rt : Register) (imm : BitVec 16)
  /-- BEQL, R212. -/
  | beql (rs rt : Register) (imm : BitVec 16)
  /-- BNEL, R213. -/
  | bnel (rs rt : Register) (imm : BitVec 16)
  /-- BLEZL, R214. -/
  | blezl (rs rt : Register) (imm : BitVec 16)
  /-- BGTZL, R215. -/
  | bgtzl (rs rt : Register) (imm : BitVec 16)
  /-- DADDI, R96. -/
  | daddi (rs rt : Register) (imm : BitVec 16)
  /-- DADDIU, R98. -/
  | daddiu (rs rt : Register) (imm : BitVec 16)
  /-- LDL, R216. -/
  | ldl (rs rt : Register) (imm : BitVec 16)
  /-- LDR, R217. -/
  | ldr (rs rt : Register) (imm : BitVec 16)
  /-- LB, R218. -/
  | lb (rs rt : Register) (imm : BitVec 16)
  /-- LH, R219. -/
  | lh (rs rt : Register) (imm : BitVec 16)
  /-- LWL, R220. -/
  | lwl (rs rt : Register) (imm : BitVec 16)
  /-- LW, R221. -/
  | lw (rs rt : Register) (imm : BitVec 16)
  /-- LBU, R222. -/
  | lbu (rs rt : Register) (imm : BitVec 16)
  /-- LHU, R223. -/
  | lhu (rs rt : Register) (imm : BitVec 16)
  /-- LWR, R224. -/
  | lwr (rs rt : Register) (imm : BitVec 16)
  /-- LWU, R225. -/
  | lwu (rs rt : Register) (imm : BitVec 16)
  /-- SB, R226. -/
  | sb (rs rt : Register) (imm : BitVec 16)
  /-- SH, R227. -/
  | sh (rs rt : Register) (imm : BitVec 16)
  /-- SWL, R228. -/
  | swl (rs rt : Register) (imm : BitVec 16)
  /-- SW, R229. -/
  | sw (rs rt : Register) (imm : BitVec 16)
  /-- SDL, R230. -/
  | sdl (rs rt : Register) (imm : BitVec 16)
  /-- SDR, R231. -/
  | sdr (rs rt : Register) (imm : BitVec 16)
  /-- SWR, R232. -/
  | swr (rs rt : Register) (imm : BitVec 16)
  /-- LL, R233. -/
  | ll (rs rt : Register) (imm : BitVec 16)
  /-- LWC1, R234. -/
  | lwc1 (rs rt : Register) (imm : BitVec 16)
  /-- LLD, R235. -/
  | lld (rs rt : Register) (imm : BitVec 16)
  /-- LDC1, R236. -/
  | ldc1 (rs rt : Register) (imm : BitVec 16)
  /-- LD, R237. -/
  | ld (rs rt : Register) (imm : BitVec 16)
  /-- SC, R238. -/
  | sc (rs rt : Register) (imm : BitVec 16)
  /-- SWC1, R239. -/
  | swc1 (rs rt : Register) (imm : BitVec 16)
  /-- SCD, R240. -/
  | scd (rs rt : Register) (imm : BitVec 16)
  /-- SDC1, R241. -/
  | sdc1 (rs rt : Register) (imm : BitVec 16)
  /-- SD, R242. -/
  | sd (rs rt : Register) (imm : BitVec 16)
  /-- BLTZ, R244. -/
  | bltz (rs : Register) (imm : BitVec 16)
  /-- BGEZ, R245. -/
  | bgez (rs : Register) (imm : BitVec 16)
  /-- BLTZL, R246. -/
  | bltzl (rs : Register) (imm : BitVec 16)
  /-- BGEZL, R247. -/
  | bgezl (rs : Register) (imm : BitVec 16)
  /-- TGEI, R248. -/
  | tgei (rs : Register) (imm : BitVec 16)
  /-- TGEIU, R249. -/
  | tgeiu (rs : Register) (imm : BitVec 16)
  /-- TLTI, R250. -/
  | tlti (rs : Register) (imm : BitVec 16)
  /-- TLTIU, R251. -/
  | tltiu (rs : Register) (imm : BitVec 16)
  /-- TEQI, R252. -/
  | teqi (rs : Register) (imm : BitVec 16)
  /-- TNEI, R253. -/
  | tnei (rs : Register) (imm : BitVec 16)
  /-- BLTZAL, R254. -/
  | bltzal (rs : Register) (imm : BitVec 16)
  /-- BGEZAL, R255. -/
  | bgezal (rs : Register) (imm : BitVec 16)
  /-- BLTZALL, R256. -/
  | bltzall (rs : Register) (imm : BitVec 16)
  /-- BGEZALL, R257. -/
  | bgezall (rs : Register) (imm : BitVec 16)
deriving DecidableEq, Repr

/-- What decoding one word gives (R69, R71): an instruction, or the fault `UnknownEncoding` with its field name and the
numeric code outside the closed set (R70). -/
inductive DecodeResult where
  | ok (i : Instr)
  | unknownEncoding (field : FieldName) (code : Nat)
deriving DecidableEq, Repr

end Sys2Proof
end

