-- ==== Sys2Proof/WellFormed.lean ====
section
/-! DEFINITION. When a decoded instruction is one the decoder can produce: a field `rs`, `rt` or `rd` is five bits wide,
so it names `r0` to `r31` and never `lo` or `hi` (R23, R56). Every other field's type is exactly as wide as its bits. -/

namespace Sys2Proof

/-- Is the identifier one of `r0` to `r31`? (R21, R56) -/
def Register.isGpr (r : Register) : Bool := decide (r.val < 32)

/-- The `Register` operands of an instruction, by format (R52, R55). FR-format fields are `FPRegister`s (R56). -/
def Instr.gprOperands : Instr → List Register
  | .sll rs rt rd _ | .srl rs rt rd _ | .sra rs rt rd _ | .sllv rs rt rd _ | .srlv rs rt rd _
  | .srav rs rt rd _ | .jr rs rt rd _ | .jalr rs rt rd _ | .syscall rs rt rd _ | .break_ rs rt rd _
  | .sync rs rt rd _ | .mfhi rs rt rd _ | .mthi rs rt rd _ | .mflo rs rt rd _ | .mtlo rs rt rd _
  | .dsllv rs rt rd _ | .dsrlv rs rt rd _ | .dsrav rs rt rd _ | .mult rs rt rd _ | .multu rs rt rd _
  | .div rs rt rd _ | .divu rs rt rd _ | .dmult rs rt rd _ | .dmultu rs rt rd _ | .ddiv rs rt rd _
  | .ddivu rs rt rd _ | .add rs rt rd _ | .addu rs rt rd _ | .sub rs rt rd _ | .subu rs rt rd _
  | .and rs rt rd _ | .or rs rt rd _ | .xor rs rt rd _ | .nor rs rt rd _ | .slt rs rt rd _
  | .sltu rs rt rd _ | .dadd rs rt rd _ | .daddu rs rt rd _ | .dsub rs rt rd _ | .dsubu rs rt rd _
  | .tge rs rt rd _ | .tgeu rs rt rd _ | .tlt rs rt rd _ | .tltu rs rt rd _ | .teq rs rt rd _
  | .tne rs rt rd _ | .dsll rs rt rd _ | .dsrl rs rt rd _ | .dsra rs rt rd _ | .dsll32 rs rt rd _
  | .dsrl32 rs rt rd _ | .dsra32 rs rt rd _ => [rs, rt, rd]
  | .beq rs rt _ | .bne rs rt _ | .blez rs rt _ | .bgtz rs rt _ | .addi rs rt _
  | .addiu rs rt _ | .slti rs rt _ | .sltiu rs rt _ | .andi rs rt _ | .ori rs rt _
  | .xori rs rt _ | .lui rs rt _ | .beql rs rt _ | .bnel rs rt _ | .blezl rs rt _
  | .bgtzl rs rt _ | .daddi rs rt _ | .daddiu rs rt _ | .ldl rs rt _ | .ldr rs rt _
  | .lb rs rt _ | .lh rs rt _ | .lwl rs rt _ | .lw rs rt _ | .lbu rs rt _
  | .lhu rs rt _ | .lwr rs rt _ | .lwu rs rt _ | .sb rs rt _ | .sh rs rt _
  | .swl rs rt _ | .sw rs rt _ | .sdl rs rt _ | .sdr rs rt _ | .swr rs rt _
  | .ll rs rt _ | .lwc1 rs rt _ | .lld rs rt _ | .ldc1 rs rt _ | .ld rs rt _
  | .sc rs rt _ | .swc1 rs rt _ | .scd rs rt _ | .sdc1 rs rt _ | .sd rs rt _ => [rs, rt]
  | .bltz rs _ | .bgez rs _ | .bltzl rs _ | .bgezl rs _ | .tgei rs _
  | .tgeiu rs _ | .tlti rs _ | .tltiu rs _ | .teqi rs _ | .tnei rs _
  | .bltzal rs _ | .bgezal rs _ | .bltzall rs _ | .bgezall rs _ => [rs]
  | .mfc1 _ _ _ _ | .dmfc1 _ _ _ _ | .cfc1 _ _ _ _ | .mtc1 _ _ _ _ | .dmtc1 _ _ _ _
  | .ctc1 _ _ _ _ | .addFmt _ _ _ _ | .subFmt _ _ _ _ | .mulFmt _ _ _ _ | .divFmt _ _ _ _
  | .sqrtFmt _ _ _ _ | .absFmt _ _ _ _ | .movFmt _ _ _ _ | .negFmt _ _ _ _ | .roundLFmt _ _ _ _
  | .truncLFmt _ _ _ _ | .ceilLFmt _ _ _ _ | .floorLFmt _ _ _ _ | .roundWFmt _ _ _ _ | .truncWFmt _ _ _ _
  | .ceilWFmt _ _ _ _ | .floorWFmt _ _ _ _ | .cvtSFmt _ _ _ _ | .cvtDFmt _ _ _ _ | .cvtWFmt _ _ _ _
  | .cvtLFmt _ _ _ _ | .cFFmt _ _ _ _ | .cUnFmt _ _ _ _ | .cEqFmt _ _ _ _ | .cUeqFmt _ _ _ _
  | .cOltFmt _ _ _ _ | .cUltFmt _ _ _ _ | .cOleFmt _ _ _ _ | .cUleFmt _ _ _ _ | .cSfFmt _ _ _ _
  | .cNgleFmt _ _ _ _ | .cSeqFmt _ _ _ _ | .cNglFmt _ _ _ _ | .cLtFmt _ _ _ _ | .cNgeFmt _ _ _ _
  | .cLeFmt _ _ _ _ | .cNgtFmt _ _ _ _ => []
  | .bc1f _ _ | .bc1t _ _ | .bc1fl _ _ | .bc1tl _ _ => []
  | .j _ | .jal _ => []

/-- Well-formedness of an instruction (R56). -/
def Instr.wellFormed (i : Instr) : Bool := i.gprOperands.all Register.isGpr

end Sys2Proof
end

