-- ==== Sys2Proof/Decode.lean ====
section
/-! DEFINITION. The Instruction Decoder (R50 to R77): bit fields, the five closed sets as their tables of cells, `decode`
of one word (R69), the shape of a decoded instruction (R51), and the encoder. -/

namespace Sys2Proof

/-- The field of `len` bits of `w` whose lowest bit is `lo` (R9): `w[lo+len-1:lo]`. -/
def field (w : Word) (lo len : Nat) : BitVec len := w.extractLsb' lo len

/-- A 5-bit field as a Register number (R56). -/
def Register.ofBits (b : BitVec 5) : Register := ⟨b.toNat, Nat.lt_of_lt_of_le b.isLt (by decide)⟩

/-- The 5-bit field that names a general-purpose register (R21, R56). -/
def Register.toBits (r : Register) : BitVec 5 := BitVec.ofNat 5 r.val

/-- A 5-bit field as a floating-point register number (R35, R56). -/
def FPRegister.ofBits (b : BitVec 5) : FPRegister := ⟨b.toNat, b.isLt⟩

/-- The 5-bit field that names a floating-point register (R35). -/
def FPRegister.toBits (f : FPRegister) : BitVec 5 := BitVec.ofNat 5 f.val

/-- The I-format field `imm`: bits 15:0 sign-extended to 32 bits (R57). -/
def immSigned (imm : BitVec 16) : BitVec 32 := imm.signExtend 32

/-- The I-format field `imm_us`: the same bits zero-extended (R57). -/
def immUnsigned (imm : BitVec 16) : BitVec 32 := imm.setWidth 32

/-! The closed sets, cell by cell as the spec's tables print them: the row is the code's bits above bit 2, the column its
bits 2:0; `none` is a cell marked as not a member. -/

/-- The cell of a table for a code (R63 to R67). -/
def cellAt {α : Type} (cells : List (List (Option α))) (code : Nat) : Option α :=
  ((cells[code / 8]?).bind (fun row => row[code % 8]?)).join

/-- The primary-opcode table (R63). -/
def Opcode.cells : List (List (Option Opcode)) :=
  [[some .special, some (.i .regimm), some (.j .j), some (.j .jal), some (.i .beq), some (.i .bne), some (.i .blez), some (.i .bgtz)],
   [some (.i .addi), some (.i .addiu), some (.i .slti), some (.i .sltiu), some (.i .andi), some (.i .ori), some (.i .xori), some (.i .lui)],
   [none, some .cop1, none, none, some (.i .beql), some (.i .bnel), some (.i .blezl), some (.i .bgtzl)],
   [some (.i .daddi), some (.i .daddiu), some (.i .ldl), some (.i .ldr), none, none, none, none],
   [some (.i .lb), some (.i .lh), some (.i .lwl), some (.i .lw), some (.i .lbu), some (.i .lhu), some (.i .lwr), some (.i .lwu)],
   [some (.i .sb), some (.i .sh), some (.i .swl), some (.i .sw), some (.i .sdl), some (.i .sdr), some (.i .swr), none],
   [some (.i .ll), some (.i .lwc1), none, none, some (.i .lld), some (.i .ldc1), none, some (.i .ld)],
   [some (.i .sc), some (.i .swc1), none, none, some (.i .scd), some (.i .sdc1), none, some (.i .sd)]]

/-- The R-type function table (R64). -/
def RFunc.cells : List (List (Option RFunc)) :=
  [[some .sll, none, some .srl, some .sra, some .sllv, none, some .srlv, some .srav],
   [some .jr, some .jalr, none, none, some .syscall, some .break_, none, some .sync],
   [some .mfhi, some .mthi, some .mflo, some .mtlo, some .dsllv, none, some .dsrlv, some .dsrav],
   [some .mult, some .multu, some .div, some .divu, some .dmult, some .dmultu, some .ddiv, some .ddivu],
   [some .add, some .addu, some .sub, some .subu, some .and, some .or, some .xor, some .nor],
   [none, none, some .slt, some .sltu, some .dadd, some .daddu, some .dsub, some .dsubu],
   [some .tge, some .tgeu, some .tlt, some .tltu, some .teq, none, some .tne, none],
   [some .dsll, none, some .dsrl, some .dsra, some .dsll32, none, some .dsrl32, some .dsra32]]

/-- The REGIMM code table (R65). -/
def RegimmCode.cells : List (List (Option RegimmCode)) :=
  [[some .bltz, some .bgez, some .bltzl, some .bgezl, none, none, none, none],
   [some .tgei, some .tgeiu, some .tlti, some .tltiu, some .teqi, none, some .tnei, none],
   [some .bltzal, some .bgezal, some .bltzall, some .bgezall, none, none, none, none],
   [none, none, none, none, none, none, none, none]]

/-- The COP1 format table (R66). -/
def Cop1Fmt.cells : List (List (Option Cop1Fmt)) :=
  [[some .mf, some .dmf, some .cf, none, some .mt, some .dmt, some .ct, none],
   [some .bc, none, none, none, none, none, none, none],
   [some (.arith .s), some (.arith .d), none, none, some (.arith .w), some (.arith .l), none, none],
   [none, none, none, none, none, none, none, none]]

/-- The COP1 function table (R67). -/
def Cop1Func.cells : List (List (Option Cop1Func)) :=
  [[some .add, some .sub, some .mul, some .div, some .sqrt, some .abs, some .mov, some .neg],
   [some .roundL, some .truncL, some .ceilL, some .floorL, some .roundW, some .truncW, some .ceilW, some .floorW],
   [none, none, none, none, none, none, none, none],
   [none, none, none, none, none, none, none, none],
   [some .cvtS, some .cvtD, none, none, some .cvtW, some .cvtL, none, none],
   [none, none, none, none, none, none, none, none],
   [some .cF, some .cUn, some .cEq, some .cUeq, some .cOlt, some .cUlt, some .cOle, some .cUle],
   [some .cSf, some .cNgle, some .cSeq, some .cNgl, some .cLt, some .cNge, some .cLe, some .cNgt]]

/-- Look a primary opcode up; `none` outside the closed set (R63). -/
def Opcode.lookup (c : BitVec 6) : Option Opcode := cellAt Opcode.cells c.toNat

/-- Look an R-type function code up; `none` outside the closed set (R64). -/
def RFunc.lookup (c : BitVec 6) : Option RFunc := cellAt RFunc.cells c.toNat

/-- Look a REGIMM code up; `none` outside the closed set (R65). -/
def RegimmCode.lookup (c : BitVec 5) : Option RegimmCode := cellAt RegimmCode.cells c.toNat

/-- Look a COP1 format code up; `none` outside the closed set (R66). -/
def Cop1Fmt.lookup (c : BitVec 5) : Option Cop1Fmt := cellAt Cop1Fmt.cells c.toNat

/-- Look a COP1 function code up; `none` outside the closed set (R67). -/
def Cop1Func.lookup (c : BitVec 6) : Option Cop1Func := cellAt Cop1Func.cells c.toNat

/-- The R-format instruction with function `f` (R106 and the executed functions of R80). -/
def RFunc.instr (f : RFunc) (rs rt rd : Register) (shamt : BitVec 5) : Instr :=
  match f with
  | .sll => .sll rs rt rd shamt
  | .srl => .srl rs rt rd shamt
  | .sra => .sra rs rt rd shamt
  | .sllv => .sllv rs rt rd shamt
  | .srlv => .srlv rs rt rd shamt
  | .srav => .srav rs rt rd shamt
  | .jr => .jr rs rt rd shamt
  | .jalr => .jalr rs rt rd shamt
  | .syscall => .syscall rs rt rd shamt
  | .break_ => .break_ rs rt rd shamt
  | .sync => .sync rs rt rd shamt
  | .mfhi => .mfhi rs rt rd shamt
  | .mthi => .mthi rs rt rd shamt
  | .mflo => .mflo rs rt rd shamt
  | .mtlo => .mtlo rs rt rd shamt
  | .dsllv => .dsllv rs rt rd shamt
  | .dsrlv => .dsrlv rs rt rd shamt
  | .dsrav => .dsrav rs rt rd shamt
  | .mult => .mult rs rt rd shamt
  | .multu => .multu rs rt rd shamt
  | .div => .div rs rt rd shamt
  | .divu => .divu rs rt rd shamt
  | .dmult => .dmult rs rt rd shamt
  | .dmultu => .dmultu rs rt rd shamt
  | .ddiv => .ddiv rs rt rd shamt
  | .ddivu => .ddivu rs rt rd shamt
  | .add => .add rs rt rd shamt
  | .addu => .addu rs rt rd shamt
  | .sub => .sub rs rt rd shamt
  | .subu => .subu rs rt rd shamt
  | .and => .and rs rt rd shamt
  | .or => .or rs rt rd shamt
  | .xor => .xor rs rt rd shamt
  | .nor => .nor rs rt rd shamt
  | .slt => .slt rs rt rd shamt
  | .sltu => .sltu rs rt rd shamt
  | .dadd => .dadd rs rt rd shamt
  | .daddu => .daddu rs rt rd shamt
  | .dsub => .dsub rs rt rd shamt
  | .dsubu => .dsubu rs rt rd shamt
  | .tge => .tge rs rt rd shamt
  | .tgeu => .tgeu rs rt rd shamt
  | .tlt => .tlt rs rt rd shamt
  | .tltu => .tltu rs rt rd shamt
  | .teq => .teq rs rt rd shamt
  | .tne => .tne rs rt rd shamt
  | .dsll => .dsll rs rt rd shamt
  | .dsrl => .dsrl rs rt rd shamt
  | .dsra => .dsra rs rt rd shamt
  | .dsll32 => .dsll32 rs rt rd shamt
  | .dsrl32 => .dsrl32 rs rt rd shamt
  | .dsra32 => .dsra32 rs rt rd shamt

/-- The REGIMM instruction with code `c` (R243). -/
def RegimmCode.instr (c : RegimmCode) (rs : Register) (imm : BitVec 16) : Instr :=
  match c with
  | .bltz => .bltz rs imm
  | .bgez => .bgez rs imm
  | .bltzl => .bltzl rs imm
  | .bgezl => .bgezl rs imm
  | .tgei => .tgei rs imm
  | .tgeiu => .tgeiu rs imm
  | .tlti => .tlti rs imm
  | .tltiu => .tltiu rs imm
  | .teqi => .teqi rs imm
  | .tnei => .tnei rs imm
  | .bltzal => .bltzal rs imm
  | .bgezal => .bgezal rs imm
  | .bltzall => .bltzall rs imm
  | .bgezall => .bgezall rs imm

/-- The COP1 arithmetic-format instruction with function `f` (R162 to R197). -/
def Cop1Func.instr (f : Cop1Func) (fmt : ArithFmt) (ft fs fd : FPRegister) : Instr :=
  match f with
  | .add => .addFmt fmt ft fs fd
  | .sub => .subFmt fmt ft fs fd
  | .mul => .mulFmt fmt ft fs fd
  | .div => .divFmt fmt ft fs fd
  | .sqrt => .sqrtFmt fmt ft fs fd
  | .abs => .absFmt fmt ft fs fd
  | .mov => .movFmt fmt ft fs fd
  | .neg => .negFmt fmt ft fs fd
  | .roundL => .roundLFmt fmt ft fs fd
  | .truncL => .truncLFmt fmt ft fs fd
  | .ceilL => .ceilLFmt fmt ft fs fd
  | .floorL => .floorLFmt fmt ft fs fd
  | .roundW => .roundWFmt fmt ft fs fd
  | .truncW => .truncWFmt fmt ft fs fd
  | .ceilW => .ceilWFmt fmt ft fs fd
  | .floorW => .floorWFmt fmt ft fs fd
  | .cvtS => .cvtSFmt fmt ft fs fd
  | .cvtD => .cvtDFmt fmt ft fs fd
  | .cvtW => .cvtWFmt fmt ft fs fd
  | .cvtL => .cvtLFmt fmt ft fs fd
  | .cF => .cFFmt fmt ft fs fd
  | .cUn => .cUnFmt fmt ft fs fd
  | .cEq => .cEqFmt fmt ft fs fd
  | .cUeq => .cUeqFmt fmt ft fs fd
  | .cOlt => .cOltFmt fmt ft fs fd
  | .cUlt => .cUltFmt fmt ft fs fd
  | .cOle => .cOleFmt fmt ft fs fd
  | .cUle => .cUleFmt fmt ft fs fd
  | .cSf => .cSfFmt fmt ft fs fd
  | .cNgle => .cNgleFmt fmt ft fs fd
  | .cSeq => .cSeqFmt fmt ft fs fd
  | .cNgl => .cNglFmt fmt ft fs fd
  | .cLt => .cLtFmt fmt ft fs fd
  | .cNge => .cNgeFmt fmt ft fs fd
  | .cLe => .cLeFmt fmt ft fs fd
  | .cNgt => .cNgtFmt fmt ft fs fd

/-- The BC1 variant named by `nd` (bit 17) and `tf` (bit 16) (R68). -/
def bc1Instr (nd tf : Bool) (cc : BitVec 3) (offset : BitVec 16) : Instr :=
  match nd, tf with
  | false, false => .bc1f cc offset
  | false, true => .bc1t cc offset
  | true, false => .bc1fl cc offset
  | true, true => .bc1tl cc offset

/-- The R arm of `decode` (R69). -/
def decodeR (w : Word) : DecodeResult :=
  match RFunc.lookup (field w 0 6) with
  | none => .unknownEncoding .func (field w 0 6).toNat
  | some f =>
    .ok (f.instr (.ofBits (field w 21 5)) (.ofBits (field w 16 5)) (.ofBits (field w 11 5)) (field w 6 5))

/-- The J arm of `decode` (R69). -/
def decodeJ (op : JOpcode) (w : Word) : DecodeResult :=
  match op with
  | .j => .ok (.j (field w 0 26))
  | .jal => .ok (.jal (field w 0 26))

/-- The FR arm of `decode` (R69): the format first, then, for an arithmetic format only, the function (R60, R70). -/
def decodeFR (w : Word) : DecodeResult :=
  let ft := FPRegister.ofBits (field w 16 5)
  let fs := FPRegister.ofBits (field w 11 5)
  let fd := FPRegister.ofBits (field w 6 5)
  let func := field w 0 6
  match Cop1Fmt.lookup (field w 21 5) with
  | none => .unknownEncoding .fmt (field w 21 5).toNat
  | some .mf => .ok (.mfc1 ft fs fd func)
  | some .dmf => .ok (.dmfc1 ft fs fd func)
  | some .cf => .ok (.cfc1 ft fs fd func)
  | some .mt => .ok (.mtc1 ft fs fd func)
  | some .dmt => .ok (.dmtc1 ft fs fd func)
  | some .ct => .ok (.ctc1 ft fs fd func)
  | some .bc => .ok (bc1Instr (w.getLsbD 17) (w.getLsbD 16) (field w 18 3) (field w 0 16))
  | some (.arith fmt) =>
    match Cop1Func.lookup func with
    | none => .unknownEncoding .cop1Func func.toNat
    | some f => .ok (f.instr fmt ft fs fd)

/-- The I arm of `decode` (R69); a REGIMM word's bits 20:16 are looked up first (R61). -/
def decodeI (op : IOpcode) (w : Word) : DecodeResult :=
  let rs := Register.ofBits (field w 21 5)
  let rt := Register.ofBits (field w 16 5)
  let imm := field w 0 16
  match op with
  | .regimm =>
    match RegimmCode.lookup (field w 16 5) with
    | none => .unknownEncoding .regimm (field w 16 5).toNat
    | some c => .ok (c.instr rs imm)
  | .beq => .ok (.beq rs rt imm)
  | .bne => .ok (.bne rs rt imm)
  | .blez => .ok (.blez rs rt imm)
  | .bgtz => .ok (.bgtz rs rt imm)
  | .addi => .ok (.addi rs rt imm)
  | .addiu => .ok (.addiu rs rt imm)
  | .slti => .ok (.slti rs rt imm)
  | .sltiu => .ok (.sltiu rs rt imm)
  | .andi => .ok (.andi rs rt imm)
  | .ori => .ok (.ori rs rt imm)
  | .xori => .ok (.xori rs rt imm)
  | .lui => .ok (.lui rs rt imm)
  | .beql => .ok (.beql rs rt imm)
  | .bnel => .ok (.bnel rs rt imm)
  | .blezl => .ok (.blezl rs rt imm)
  | .bgtzl => .ok (.bgtzl rs rt imm)
  | .daddi => .ok (.daddi rs rt imm)
  | .daddiu => .ok (.daddiu rs rt imm)
  | .ldl => .ok (.ldl rs rt imm)
  | .ldr => .ok (.ldr rs rt imm)
  | .lb => .ok (.lb rs rt imm)
  | .lh => .ok (.lh rs rt imm)
  | .lwl => .ok (.lwl rs rt imm)
  | .lw => .ok (.lw rs rt imm)
  | .lbu => .ok (.lbu rs rt imm)
  | .lhu => .ok (.lhu rs rt imm)
  | .lwr => .ok (.lwr rs rt imm)
  | .lwu => .ok (.lwu rs rt imm)
  | .sb => .ok (.sb rs rt imm)
  | .sh => .ok (.sh rs rt imm)
  | .swl => .ok (.swl rs rt imm)
  | .sw => .ok (.sw rs rt imm)
  | .sdl => .ok (.sdl rs rt imm)
  | .sdr => .ok (.sdr rs rt imm)
  | .swr => .ok (.swr rs rt imm)
  | .ll => .ok (.ll rs rt imm)
  | .lwc1 => .ok (.lwc1 rs rt imm)
  | .lld => .ok (.lld rs rt imm)
  | .ldc1 => .ok (.ldc1 rs rt imm)
  | .ld => .ok (.ld rs rt imm)
  | .sc => .ok (.sc rs rt imm)
  | .swc1 => .ok (.swc1 rs rt imm)
  | .scd => .ok (.scd rs rt imm)
  | .sdc1 => .ok (.sdc1 rs rt imm)
  | .sd => .ok (.sd rs rt imm)

/-- `decode` of one word (R69): the opcode first (R70), then the arm of its format class (R62). Total on every word. -/
def decode (w : Word) : DecodeResult :=
  match Opcode.lookup (field w 26 6) with
  | none => .unknownEncoding .opcode (field w 26 6).toNat
  | some .special => decodeR w
  | some .cop1 => decodeFR w
  | some (.j op) => decodeJ op w
  | some (.i op) => decodeI op w

/-- The instruction the decoder reads from a table row's bits: the bits of `w` below `nbits`, zeros above, as one 32-bit
word (the table numbers a word's bits as R9 does, and CORE has no byte order, R43). -/
def decodeTableWord (nbits w : Nat) : Option Instr :=
  match decode (BitVec.ofNat 32 (w % 2 ^ nbits)) with
  | .ok i => some i
  | .unknownEncoding _ _ => none

/-! The codes, as spec/opcode_table.json gives them (R63 to R67). -/

/-- The function code of an R-type function (R64). -/
def RFunc.code : RFunc → BitVec 6
  | .sll => 0x00#6 | .srl => 0x02#6 | .sra => 0x03#6 | .sllv => 0x04#6
  | .srlv => 0x06#6 | .srav => 0x07#6 | .jr => 0x08#6 | .jalr => 0x09#6
  | .syscall => 0x0c#6 | .break_ => 0x0d#6 | .sync => 0x0f#6 | .mfhi => 0x10#6
  | .mthi => 0x11#6 | .mflo => 0x12#6 | .mtlo => 0x13#6 | .dsllv => 0x14#6
  | .dsrlv => 0x16#6 | .dsrav => 0x17#6 | .mult => 0x18#6 | .multu => 0x19#6
  | .div => 0x1a#6 | .divu => 0x1b#6 | .dmult => 0x1c#6 | .dmultu => 0x1d#6
  | .ddiv => 0x1e#6 | .ddivu => 0x1f#6 | .add => 0x20#6 | .addu => 0x21#6
  | .sub => 0x22#6 | .subu => 0x23#6 | .and => 0x24#6 | .or => 0x25#6
  | .xor => 0x26#6 | .nor => 0x27#6 | .slt => 0x2a#6 | .sltu => 0x2b#6
  | .dadd => 0x2c#6 | .daddu => 0x2d#6 | .dsub => 0x2e#6 | .dsubu => 0x2f#6
  | .tge => 0x30#6 | .tgeu => 0x31#6 | .tlt => 0x32#6 | .tltu => 0x33#6
  | .teq => 0x34#6 | .tne => 0x36#6 | .dsll => 0x38#6 | .dsrl => 0x3a#6
  | .dsra => 0x3b#6 | .dsll32 => 0x3c#6 | .dsrl32 => 0x3e#6 | .dsra32 => 0x3f#6

/-- The primary opcode of an I-class opcode (R63). -/
def IOpcode.code : IOpcode → BitVec 6
  | .regimm => 0x01#6
  | .beq => 0x04#6 | .bne => 0x05#6 | .blez => 0x06#6 | .bgtz => 0x07#6
  | .addi => 0x08#6 | .addiu => 0x09#6 | .slti => 0x0a#6 | .sltiu => 0x0b#6
  | .andi => 0x0c#6 | .ori => 0x0d#6 | .xori => 0x0e#6 | .lui => 0x0f#6
  | .beql => 0x14#6 | .bnel => 0x15#6 | .blezl => 0x16#6 | .bgtzl => 0x17#6
  | .daddi => 0x18#6 | .daddiu => 0x19#6 | .ldl => 0x1a#6 | .ldr => 0x1b#6
  | .lb => 0x20#6 | .lh => 0x21#6 | .lwl => 0x22#6 | .lw => 0x23#6
  | .lbu => 0x24#6 | .lhu => 0x25#6 | .lwr => 0x26#6 | .lwu => 0x27#6
  | .sb => 0x28#6 | .sh => 0x29#6 | .swl => 0x2a#6 | .sw => 0x2b#6
  | .sdl => 0x2c#6 | .sdr => 0x2d#6 | .swr => 0x2e#6 | .ll => 0x30#6
  | .lwc1 => 0x31#6 | .lld => 0x34#6 | .ldc1 => 0x35#6 | .ld => 0x37#6
  | .sc => 0x38#6 | .swc1 => 0x39#6 | .scd => 0x3c#6 | .sdc1 => 0x3d#6
  | .sd => 0x3f#6

/-- The primary opcode of a J-class opcode (R63). -/
def JOpcode.code : JOpcode → BitVec 6
  | .j => 0x02#6 | .jal => 0x03#6

/-- The primary opcode (R63). -/
def Opcode.code : Opcode → BitVec 6
  | .special => 0x00#6
  | .cop1 => 0x11#6
  | .j op => op.code
  | .i op => op.code

/-- The REGIMM code (R65). -/
def RegimmCode.code : RegimmCode → BitVec 5
  | .bltz => 0x00#5 | .bgez => 0x01#5 | .bltzl => 0x02#5 | .bgezl => 0x03#5
  | .tgei => 0x08#5 | .tgeiu => 0x09#5 | .tlti => 0x0a#5 | .tltiu => 0x0b#5
  | .teqi => 0x0c#5 | .tnei => 0x0e#5 | .bltzal => 0x10#5 | .bgezal => 0x11#5
  | .bltzall => 0x12#5 | .bgezall => 0x13#5

/-- The COP1 format code (R66). -/
def Cop1Fmt.code : Cop1Fmt → BitVec 5
  | .mf => 0#5 | .dmf => 1#5 | .cf => 2#5 | .mt => 4#5 | .dmt => 5#5 | .ct => 6#5 | .bc => 8#5
  | .arith .s => 16#5 | .arith .d => 17#5 | .arith .w => 20#5 | .arith .l => 21#5

/-- The COP1 function code (R67). -/
def Cop1Func.code : Cop1Func → BitVec 6
  | .add => 0x00#6 | .sub => 0x01#6 | .mul => 0x02#6 | .div => 0x03#6
  | .sqrt => 0x04#6 | .abs => 0x05#6 | .mov => 0x06#6 | .neg => 0x07#6
  | .roundL => 0x08#6 | .truncL => 0x09#6 | .ceilL => 0x0a#6 | .floorL => 0x0b#6
  | .roundW => 0x0c#6 | .truncW => 0x0d#6 | .ceilW => 0x0e#6 | .floorW => 0x0f#6
  | .cvtS => 0x20#6 | .cvtD => 0x21#6 | .cvtW => 0x24#6 | .cvtL => 0x25#6
  | .cF => 0x30#6 | .cUn => 0x31#6 | .cEq => 0x32#6 | .cUeq => 0x33#6
  | .cOlt => 0x34#6 | .cUlt => 0x35#6 | .cOle => 0x36#6 | .cUle => 0x37#6
  | .cSf => 0x38#6 | .cNgle => 0x39#6 | .cSeq => 0x3a#6 | .cNgl => 0x3b#6
  | .cLt => 0x3c#6 | .cNge => 0x3d#6 | .cLe => 0x3e#6 | .cNgt => 0x3f#6

/-- The `func` bits of an FR word (R60). -/
def FrFunc.bits : FrFunc → BitVec 6
  | .named f => f.code
  | .raw b => b

/-- The shape of an I-format instruction (R55, R57). -/
def iShape (op : IOpcode) (rs rt : Register) (imm : BitVec 16) : Shape :=
  .i op rs rt (immSigned imm) (immUnsigned imm) none

/-- The shape of a REGIMM instruction: `rt` is the register whose number is the code (R61). -/
def regimmShape (c : RegimmCode) (rs : Register) (imm : BitVec 16) : Shape :=
  .i .regimm rs (.ofBits c.code) (immSigned imm) (immUnsigned imm) (some c)

/-- The shape of a BC1 word: bits 20:16 are `ft`, and bits 15:0 are `fs`, `fd` and the raw `func` (R53, R60). -/
def bcShape (nd tf : Bool) (cc : BitVec 3) (offset : BitVec 16) : Shape :=
  .fr .bc (.ofBits (cc ++ BitVec.ofBool nd ++ BitVec.ofBool tf)) (.ofBits (offset.extractLsb' 11 5))
    (.ofBits (offset.extractLsb' 6 5)) (.raw (offset.extractLsb' 0 6)) (some nd) (some tf)

/-- The decoded Instruction as the spec's tagged union (R51): what R107 to R257 call the decoded shape. -/
def Instr.shape : Instr → Shape
  | .sll rs rt rd shamt => .r rs rt rd shamt .sll
  | .srl rs rt rd shamt => .r rs rt rd shamt .srl
  | .sra rs rt rd shamt => .r rs rt rd shamt .sra
  | .sllv rs rt rd shamt => .r rs rt rd shamt .sllv
  | .srlv rs rt rd shamt => .r rs rt rd shamt .srlv
  | .srav rs rt rd shamt => .r rs rt rd shamt .srav
  | .jr rs rt rd shamt => .r rs rt rd shamt .jr
  | .jalr rs rt rd shamt => .r rs rt rd shamt .jalr
  | .syscall rs rt rd shamt => .r rs rt rd shamt .syscall
  | .break_ rs rt rd shamt => .r rs rt rd shamt .break_
  | .sync rs rt rd shamt => .r rs rt rd shamt .sync
  | .mfhi rs rt rd shamt => .r rs rt rd shamt .mfhi
  | .mthi rs rt rd shamt => .r rs rt rd shamt .mthi
  | .mflo rs rt rd shamt => .r rs rt rd shamt .mflo
  | .mtlo rs rt rd shamt => .r rs rt rd shamt .mtlo
  | .dsllv rs rt rd shamt => .r rs rt rd shamt .dsllv
  | .dsrlv rs rt rd shamt => .r rs rt rd shamt .dsrlv
  | .dsrav rs rt rd shamt => .r rs rt rd shamt .dsrav
  | .mult rs rt rd shamt => .r rs rt rd shamt .mult
  | .multu rs rt rd shamt => .r rs rt rd shamt .multu
  | .div rs rt rd shamt => .r rs rt rd shamt .div
  | .divu rs rt rd shamt => .r rs rt rd shamt .divu
  | .dmult rs rt rd shamt => .r rs rt rd shamt .dmult
  | .dmultu rs rt rd shamt => .r rs rt rd shamt .dmultu
  | .ddiv rs rt rd shamt => .r rs rt rd shamt .ddiv
  | .ddivu rs rt rd shamt => .r rs rt rd shamt .ddivu
  | .add rs rt rd shamt => .r rs rt rd shamt .add
  | .addu rs rt rd shamt => .r rs rt rd shamt .addu
  | .sub rs rt rd shamt => .r rs rt rd shamt .sub
  | .subu rs rt rd shamt => .r rs rt rd shamt .subu
  | .and rs rt rd shamt => .r rs rt rd shamt .and
  | .or rs rt rd shamt => .r rs rt rd shamt .or
  | .xor rs rt rd shamt => .r rs rt rd shamt .xor
  | .nor rs rt rd shamt => .r rs rt rd shamt .nor
  | .slt rs rt rd shamt => .r rs rt rd shamt .slt
  | .sltu rs rt rd shamt => .r rs rt rd shamt .sltu
  | .dadd rs rt rd shamt => .r rs rt rd shamt .dadd
  | .daddu rs rt rd shamt => .r rs rt rd shamt .daddu
  | .dsub rs rt rd shamt => .r rs rt rd shamt .dsub
  | .dsubu rs rt rd shamt => .r rs rt rd shamt .dsubu
  | .tge rs rt rd shamt => .r rs rt rd shamt .tge
  | .tgeu rs rt rd shamt => .r rs rt rd shamt .tgeu
  | .tlt rs rt rd shamt => .r rs rt rd shamt .tlt
  | .tltu rs rt rd shamt => .r rs rt rd shamt .tltu
  | .teq rs rt rd shamt => .r rs rt rd shamt .teq
  | .tne rs rt rd shamt => .r rs rt rd shamt .tne
  | .dsll rs rt rd shamt => .r rs rt rd shamt .dsll
  | .dsrl rs rt rd shamt => .r rs rt rd shamt .dsrl
  | .dsra rs rt rd shamt => .r rs rt rd shamt .dsra
  | .dsll32 rs rt rd shamt => .r rs rt rd shamt .dsll32
  | .dsrl32 rs rt rd shamt => .r rs rt rd shamt .dsrl32
  | .dsra32 rs rt rd shamt => .r rs rt rd shamt .dsra32
  | .mfc1 ft fs fd func => .fr .mf ft fs fd (.raw func) none none
  | .dmfc1 ft fs fd func => .fr .dmf ft fs fd (.raw func) none none
  | .cfc1 ft fs fd func => .fr .cf ft fs fd (.raw func) none none
  | .mtc1 ft fs fd func => .fr .mt ft fs fd (.raw func) none none
  | .dmtc1 ft fs fd func => .fr .dmt ft fs fd (.raw func) none none
  | .ctc1 ft fs fd func => .fr .ct ft fs fd (.raw func) none none
  | .bc1f cc offset => bcShape false false cc offset
  | .bc1t cc offset => bcShape false true cc offset
  | .bc1fl cc offset => bcShape true false cc offset
  | .bc1tl cc offset => bcShape true true cc offset
  | .addFmt fmt ft fs fd => .fr (.arith fmt) ft fs fd (.named .add) none none
  | .subFmt fmt ft fs fd => .fr (.arith fmt) ft fs fd (.named .sub) none none
  | .mulFmt fmt ft fs fd => .fr (.arith fmt) ft fs fd (.named .mul) none none
  | .divFmt fmt ft fs fd => .fr (.arith fmt) ft fs fd (.named .div) none none
  | .sqrtFmt fmt ft fs fd => .fr (.arith fmt) ft fs fd (.named .sqrt) none none
  | .absFmt fmt ft fs fd => .fr (.arith fmt) ft fs fd (.named .abs) none none
  | .movFmt fmt ft fs fd => .fr (.arith fmt) ft fs fd (.named .mov) none none
  | .negFmt fmt ft fs fd => .fr (.arith fmt) ft fs fd (.named .neg) none none
  | .roundLFmt fmt ft fs fd => .fr (.arith fmt) ft fs fd (.named .roundL) none none
  | .truncLFmt fmt ft fs fd => .fr (.arith fmt) ft fs fd (.named .truncL) none none
  | .ceilLFmt fmt ft fs fd => .fr (.arith fmt) ft fs fd (.named .ceilL) none none
  | .floorLFmt fmt ft fs fd => .fr (.arith fmt) ft fs fd (.named .floorL) none none
  | .roundWFmt fmt ft fs fd => .fr (.arith fmt) ft fs fd (.named .roundW) none none
  | .truncWFmt fmt ft fs fd => .fr (.arith fmt) ft fs fd (.named .truncW) none none
  | .ceilWFmt fmt ft fs fd => .fr (.arith fmt) ft fs fd (.named .ceilW) none none
  | .floorWFmt fmt ft fs fd => .fr (.arith fmt) ft fs fd (.named .floorW) none none
  | .cvtSFmt fmt ft fs fd => .fr (.arith fmt) ft fs fd (.named .cvtS) none none
  | .cvtDFmt fmt ft fs fd => .fr (.arith fmt) ft fs fd (.named .cvtD) none none
  | .cvtWFmt fmt ft fs fd => .fr (.arith fmt) ft fs fd (.named .cvtW) none none
  | .cvtLFmt fmt ft fs fd => .fr (.arith fmt) ft fs fd (.named .cvtL) none none
  | .cFFmt fmt ft fs fd => .fr (.arith fmt) ft fs fd (.named .cF) none none
  | .cUnFmt fmt ft fs fd => .fr (.arith fmt) ft fs fd (.named .cUn) none none
  | .cEqFmt fmt ft fs fd => .fr (.arith fmt) ft fs fd (.named .cEq) none none
  | .cUeqFmt fmt ft fs fd => .fr (.arith fmt) ft fs fd (.named .cUeq) none none
  | .cOltFmt fmt ft fs fd => .fr (.arith fmt) ft fs fd (.named .cOlt) none none
  | .cUltFmt fmt ft fs fd => .fr (.arith fmt) ft fs fd (.named .cUlt) none none
  | .cOleFmt fmt ft fs fd => .fr (.arith fmt) ft fs fd (.named .cOle) none none
  | .cUleFmt fmt ft fs fd => .fr (.arith fmt) ft fs fd (.named .cUle) none none
  | .cSfFmt fmt ft fs fd => .fr (.arith fmt) ft fs fd (.named .cSf) none none
  | .cNgleFmt fmt ft fs fd => .fr (.arith fmt) ft fs fd (.named .cNgle) none none
  | .cSeqFmt fmt ft fs fd => .fr (.arith fmt) ft fs fd (.named .cSeq) none none
  | .cNglFmt fmt ft fs fd => .fr (.arith fmt) ft fs fd (.named .cNgl) none none
  | .cLtFmt fmt ft fs fd => .fr (.arith fmt) ft fs fd (.named .cLt) none none
  | .cNgeFmt fmt ft fs fd => .fr (.arith fmt) ft fs fd (.named .cNge) none none
  | .cLeFmt fmt ft fs fd => .fr (.arith fmt) ft fs fd (.named .cLe) none none
  | .cNgtFmt fmt ft fs fd => .fr (.arith fmt) ft fs fd (.named .cNgt) none none
  | .j addr => .j .j addr
  | .jal addr => .j .jal addr
  | .beq rs rt imm => iShape .beq rs rt imm
  | .bne rs rt imm => iShape .bne rs rt imm
  | .blez rs rt imm => iShape .blez rs rt imm
  | .bgtz rs rt imm => iShape .bgtz rs rt imm
  | .addi rs rt imm => iShape .addi rs rt imm
  | .addiu rs rt imm => iShape .addiu rs rt imm
  | .slti rs rt imm => iShape .slti rs rt imm
  | .sltiu rs rt imm => iShape .sltiu rs rt imm
  | .andi rs rt imm => iShape .andi rs rt imm
  | .ori rs rt imm => iShape .ori rs rt imm
  | .xori rs rt imm => iShape .xori rs rt imm
  | .lui rs rt imm => iShape .lui rs rt imm
  | .beql rs rt imm => iShape .beql rs rt imm
  | .bnel rs rt imm => iShape .bnel rs rt imm
  | .blezl rs rt imm => iShape .blezl rs rt imm
  | .bgtzl rs rt imm => iShape .bgtzl rs rt imm
  | .daddi rs rt imm => iShape .daddi rs rt imm
  | .daddiu rs rt imm => iShape .daddiu rs rt imm
  | .ldl rs rt imm => iShape .ldl rs rt imm
  | .ldr rs rt imm => iShape .ldr rs rt imm
  | .lb rs rt imm => iShape .lb rs rt imm
  | .lh rs rt imm => iShape .lh rs rt imm
  | .lwl rs rt imm => iShape .lwl rs rt imm
  | .lw rs rt imm => iShape .lw rs rt imm
  | .lbu rs rt imm => iShape .lbu rs rt imm
  | .lhu rs rt imm => iShape .lhu rs rt imm
  | .lwr rs rt imm => iShape .lwr rs rt imm
  | .lwu rs rt imm => iShape .lwu rs rt imm
  | .sb rs rt imm => iShape .sb rs rt imm
  | .sh rs rt imm => iShape .sh rs rt imm
  | .swl rs rt imm => iShape .swl rs rt imm
  | .sw rs rt imm => iShape .sw rs rt imm
  | .sdl rs rt imm => iShape .sdl rs rt imm
  | .sdr rs rt imm => iShape .sdr rs rt imm
  | .swr rs rt imm => iShape .swr rs rt imm
  | .ll rs rt imm => iShape .ll rs rt imm
  | .lwc1 rs rt imm => iShape .lwc1 rs rt imm
  | .lld rs rt imm => iShape .lld rs rt imm
  | .ldc1 rs rt imm => iShape .ldc1 rs rt imm
  | .ld rs rt imm => iShape .ld rs rt imm
  | .sc rs rt imm => iShape .sc rs rt imm
  | .swc1 rs rt imm => iShape .swc1 rs rt imm
  | .scd rs rt imm => iShape .scd rs rt imm
  | .sdc1 rs rt imm => iShape .sdc1 rs rt imm
  | .sd rs rt imm => iShape .sd rs rt imm
  | .bltz rs imm => regimmShape .bltz rs imm
  | .bgez rs imm => regimmShape .bgez rs imm
  | .bltzl rs imm => regimmShape .bltzl rs imm
  | .bgezl rs imm => regimmShape .bgezl rs imm
  | .tgei rs imm => regimmShape .tgei rs imm
  | .tgeiu rs imm => regimmShape .tgeiu rs imm
  | .tlti rs imm => regimmShape .tlti rs imm
  | .tltiu rs imm => regimmShape .tltiu rs imm
  | .teqi rs imm => regimmShape .teqi rs imm
  | .tnei rs imm => regimmShape .tnei rs imm
  | .bltzal rs imm => regimmShape .bltzal rs imm
  | .bgezal rs imm => regimmShape .bgezal rs imm
  | .bltzall rs imm => regimmShape .bltzall rs imm
  | .bgezall rs imm => regimmShape .bgezall rs imm

/-- The primary opcode of a shape (R51). -/
def Shape.opcode : Shape → Opcode
  | .r _ _ _ _ _ => .special
  | .fr _ _ _ _ _ _ _ => .cop1
  | .j op _ => .j op
  | .i op _ _ _ _ _ => .i op

/-- The word of a shape, field by field as R52 to R55 place them. -/
def Shape.encode : Shape → Word
  | .r rs rt rd shamt func => (Opcode.special.code ++ rs.toBits ++ rt.toBits ++ rd.toBits ++ shamt ++ func.code : BitVec 32)
  | .fr fmt ft fs fd func _ _ => (Opcode.cop1.code ++ fmt.code ++ ft.toBits ++ fs.toBits ++ fd.toBits ++ func.bits : BitVec 32)
  | .j op addr => (op.code ++ addr : BitVec 32)
  | .i op rs rt imm _ _ => (op.code ++ rs.toBits ++ rt.toBits ++ imm.setWidth 16 : BitVec 32)

/-- The word of an instruction (R52 to R55). -/
def encode (i : Instr) : Word := i.shape.encode

/-- The result of `decode` in the spec's own terms (R69): the shape, or the fault's field name and code. -/
def decodeShape (w : Word) : Except (FieldName × Nat) Shape :=
  match decode w with
  | .ok i => .ok i.shape
  | .unknownEncoding f c => .error (f, c)

end Sys2Proof
end

