-- ==== Sys2Proof/Machine/State.lean ====
section
/-! DEFINITION. The machine's state as plain data: the Register File (R24), the reference driver's word sequence, index
and status (R277), the `decode_all` sequences callers hold (R39) and the model's own counter of free draws; the outcomes
CORE can return (R258); the state right after reset (R40, R276, R277). -/

namespace Sys2Proof.Machine

/-- The Register File: 34 slots of 64 bits, one per `Register` (R24). Slot `r0` is stored and is read as 0 by every
accessor (R26). -/
structure RegFile where
  slots : Vector DWord 34
deriving DecidableEq, Repr

/-- The two 32-bit halves of a slot (R15, R25). -/
inductive Half where
  | lo | hi
deriving DecidableEq, Repr

/-- The faults the source names (R258). `step` never answers with one: the reference driver records it in `status` and
ends the run (R277), which is safe, since the Register File and the index are kept as R82 and R277 say. -/
inductive Fault where
  /-- Raised by `decode` for a code outside its closed set (R259); recorded by `fetch`. Safe. -/
  | unknownEncoding (field : FieldName) (code : Nat)
  /-- Raised by ADD, ADDI, DADD and DADDI when the exact sum leaves the signed range (R260); recorded by
  `State.settle`. Safe. -/
  | overflowFault
  /-- Raised by `extract` outside its domain (R13, R261); no step of the driver can raise it. Safe. -/
  | invalidRange
deriving DecidableEq, Repr

/-- The refusals: the spec's two (R258) and the host's placeholder for an instruction without a meaning. -/
inductive Refusal where
  /-- An instruction of the opcode table that has no meaning yet; no arm of `exec` uses it. Safe. -/
  | notModelled (mnemonic : String)
  /-- The spec's refusal `Unimplemented(inst)` of a decode-only instruction (R83); recorded in `status` by
  `State.settle` (R277). Safe: the run proves nothing about what follows. -/
  | unimplemented (i : Instr)
  /-- The spec's refusal of a decode index that is no position of the sequence (R72, R262); `decodeAt` answers with it,
  and `step` where the driver's index lies beyond the end, which no run reaches. Safe. -/
  | indexOutOfRange
deriving DecidableEq, Repr

/-- What `execute` returns (R81): success with the updated Register File, `OverflowFault`, or `Unimplemented`. -/
inductive ExecResult where
  | ok (rf : RegFile)
  | overflowFault
  | unimplemented (i : Instr)
deriving DecidableEq, Repr

/-- An outcome other than success, as a halted run records it (R258, R277). -/
inductive Halt where
  | fault (f : Fault)
  | refusal (r : Refusal)
deriving DecidableEq, Repr

/-- The reference driver's status (R277). -/
inductive Status where
  | running
  | done
  | halted (outcome : Halt)
deriving DecidableEq, Repr

/-- A `decode_all(words)` sequence: the words it was called on and its one piece of hidden state, the position, the number
of elements already produced (R39). -/
structure DecodeSeq where
  words : List Word
  pos : Nat
deriving DecidableEq, Repr

/-- The state. -/
structure State where
  /-- the Register File, the only architectural state of CORE (R20, R24) -/
  rf : RegFile
  /-- the instruction word sequence the driver runs, fixed for the run (R41, R277) -/
  words : List Word
  /-- the driver's index into `words` (R277) -/
  k : Nat
  /-- the driver's status (R277) -/
  status : Status
  /-- the `decode_all` sequences made so far, oldest first, each over words of its own (R39, log entry 11) -/
  seqs : List DecodeSeq
  /-- the model's own counter: how many draws of P_DIV0_HI the run has taken (log entry 8) -/
  draws : Nat
deriving DecidableEq, Repr

/-- A Register File with the contents P_INIT_RF: `p r` in every slot but `r0`, which holds 0 (R40). -/
def RegFile.init (p : Register → DWord) : RegFile :=
  ⟨Vector.ofFn (fun r => if r = Register.zero then 0 else p r)⟩

/-- Where a run of `words` starts, for any initial contents P_INIT_RF: index 0, running (R276, R277). -/
def State.start (p : Register → DWord) (words : List Word) : State :=
  { rf := RegFile.init p, words := words, k := 0, status := .running, seqs := [], draws := 0 }

/-- The state right after reset: `start` with no program. The spec leaves every slot but `r0` to P_INIT_RF (R40); the
model names the value 0 for it (DESIGN CHOICE, unsafe, log entry 6). -/
def State.reset : State :=
  { rf := ⟨Vector.replicate 34 0⟩, words := [], k := 0, status := .running, seqs := [], draws := 0 }

end Sys2Proof.Machine
end

