-- ==== Sys2Proof/Machine/Ops.lean ====
section
/-! DEFINITION. The named operations: bit extraction (R12), the Register File's reads, writes and twelve accessors (R25 to
R33), and what the reference driver does with an outcome (R277). -/

namespace Sys2Proof.Machine

/-- The Bit Extraction primitive `extract(value, start, end, signed)` (R12); outside `0 <= end <= start <= 31` it is the
fault `InvalidRange` (R13, R261). -/
def extract (value : Word) (start stop : Int) (signed : Bool) : Except Fault Int :=
  if 0 ≤ stop ∧ stop ≤ start ∧ start ≤ 31 then
    let f := value.extractLsb' stop.toNat (start - stop + 1).toNat
    .ok (if signed then f.toInt else (f.toNat : Int))
  else .error .invalidRange

/-- `x[r]`: the 64-bit pattern a read of slot `r` sees; 0 for `r0` (R15, R26, R28). -/
def RegFile.read (rf : RegFile) (r : Register) : DWord :=
  if r = Register.zero then 0 else rf.slots[r]

/-- `x[r].lo`, bits 31:0 of the slot (R15, R25). -/
def RegFile.readLo (rf : RegFile) (r : Register) : Word := (rf.read r).extractLsb' 0 32

/-- `x[r].hi`, bits 63:32 of the slot (R15, R25). -/
def RegFile.readHi (rf : RegFile) (r : Register) : Word := (rf.read r).extractLsb' 32 32

/-- `Write64(reg, p)`: no change for `r0` (R30). -/
def RegFile.write64 (rf : RegFile) (r : Register) (p : DWord) : RegFile :=
  if r = Register.zero then rf else ⟨rf.slots.set r p⟩

/-- `Write32(reg, half, p)`: the other half keeps its bits; no change for `r0` (R31). -/
def RegFile.write32 (rf : RegFile) (r : Register) (half : Half) (p : Word) : RegFile :=
  match half with
  | .lo => rf.write64 r (rf.readHi r ++ p)
  | .hi => rf.write64 r (p ++ rf.readLo r)

/-! The twelve accessors (R27). A write takes the bits of its typed value (`bits_64(v)` or `bits_32(v)`, log entry 13)
and returns the updated Register File with the value the same view reads immediately after it (R29). -/

/-- `read_signed_64` (R27). -/
def RegFile.readSigned64 (rf : RegFile) (r : Register) : Int := (rf.read r).toInt

/-- `read_unsigned_64` (R27). -/
def RegFile.readUnsigned64 (rf : RegFile) (r : Register) : Nat := (rf.read r).toNat

/-- `read_signed_32_lo` (R27). -/
def RegFile.readSigned32Lo (rf : RegFile) (r : Register) : Int := (rf.readLo r).toInt

/-- `read_unsigned_32_lo` (R27). -/
def RegFile.readUnsigned32Lo (rf : RegFile) (r : Register) : Nat := (rf.readLo r).toNat

/-- `read_signed_32_hi` (R27). -/
def RegFile.readSigned32Hi (rf : RegFile) (r : Register) : Int := (rf.readHi r).toInt

/-- `read_unsigned_32_hi` (R27). -/
def RegFile.readUnsigned32Hi (rf : RegFile) (r : Register) : Nat := (rf.readHi r).toNat

/-- `write_signed_64` (R27, R29). -/
def RegFile.writeSigned64 (rf : RegFile) (r : Register) (v : DWord) : RegFile × Int :=
  let rf' := rf.write64 r v
  (rf', rf'.readSigned64 r)

/-- `write_unsigned_64` (R27, R29). -/
def RegFile.writeUnsigned64 (rf : RegFile) (r : Register) (v : DWord) : RegFile × Nat :=
  let rf' := rf.write64 r v
  (rf', rf'.readUnsigned64 r)

/-- `write_signed_32_lo` (R27, R29). -/
def RegFile.writeSigned32Lo (rf : RegFile) (r : Register) (v : Word) : RegFile × Int :=
  let rf' := rf.write32 r .lo v
  (rf', rf'.readSigned32Lo r)

/-- `write_unsigned_32_lo` (R27, R29). -/
def RegFile.writeUnsigned32Lo (rf : RegFile) (r : Register) (v : Word) : RegFile × Nat :=
  let rf' := rf.write32 r .lo v
  (rf', rf'.readUnsigned32Lo r)

/-- `write_signed_32_hi` (R27, R29). -/
def RegFile.writeSigned32Hi (rf : RegFile) (r : Register) (v : Word) : RegFile × Int :=
  let rf' := rf.write32 r .hi v
  (rf', rf'.readSigned32Hi r)

/-- `write_unsigned_32_hi` (R27, R29). -/
def RegFile.writeUnsigned32Hi (rf : RegFile) (r : Register) (v : Word) : RegFile × Nat :=
  let rf' := rf.write32 r .hi v
  (rf', rf'.readUnsigned32Hi r)

/-! What the driver does with an outcome (R277). -/

/-- A fault or refusal is taken: the outcome is recorded and the run ends; the Register File, the index and everything
else stay (R82, R267, R277). CORE saves no state, changes no mode and has no handler address (R267), and there is no
return (R268). -/
def State.halt (s : State) (h : Halt) : State := { s with status := .halted h }

/-- An operation returned `Ok`: its Register File is kept and the index advances by one (R277). -/
def State.retire (s : State) (rf : RegFile) : State := { s with rf := rf, k := s.k + 1 }

/-- The index has reached the end of the sequence (R277). -/
def State.finish (s : State) : State := { s with status := .done }

/-- The driver's case distinction over what `execute` returned (R277). -/
def State.settle (s : State) (r : ExecResult) : State :=
  match r with
  | .ok rf => s.retire rf
  | .overflowFault => s.halt (.fault .overflowFault)
  | .unimplemented i => s.halt (.refusal (.unimplemented i))

/-- One draw of P_DIV0_HI is taken if the divisor is 0 (R101): the counter moves on, so that each division by zero has a
draw of its own (log entry 8). -/
def State.drawIf (s : State) (zeroDivisor : Bool) : State :=
  if zeroDivisor then { s with draws := s.draws + 1 } else s

/-- The meaning of every decode-only instruction: `execute` returns `Unimplemented(inst)` (R83), which ends the run with
that outcome (R277); log entry 1. -/
def unimplemented (i : Instr) (s : State) : Host.Outcome State Fault Refusal :=
  .next (s.settle (.unimplemented i))

end Sys2Proof.Machine
end

