-- ==== Sys2Proof/Machine/Flags.lean ====
section
/-! DEFINITION. CORE has no flags and no condition codes (R37). The one condition an operation computes is signed
overflow, on the exact sum (R87). -/

namespace Sys2Proof.Machine

/-- Does the exact integer `v` lie in the signed range of `n` bits, `[-2^(n-1), 2^(n-1) - 1]`? (R10, R87) -/
def fitsSigned (n : Nat) (v : Int) : Bool :=
  decide (-(2 ^ (n - 1)) ≤ v ∧ v ≤ 2 ^ (n - 1) - 1)

end Sys2Proof.Machine
end

