-- ==== Sys2Proof/Machine/Operands.lean ====
section
/-! DEFINITION. How an operation reads its operands and writes its result (R57, R84 to R86). -/

namespace Sys2Proof.Machine

/-- `S32(r)`: the 32-bit lo view, signed (R84). -/
def s32 (rf : RegFile) (r : Register) : Int := (rf.readLo r).toInt

/-- `U32(r)`: the 32-bit lo view, unsigned (R84). -/
def u32 (rf : RegFile) (r : Register) : Nat := (rf.readLo r).toNat

/-- `S64(r)`: the full view, signed (R86). -/
def s64 (rf : RegFile) (r : Register) : Int := (rf.read r).toInt

/-- `U64(r)`: the full view, unsigned (R86). -/
def u64 (rf : RegFile) (r : Register) : Nat := (rf.read r).toNat

/-- The integer `imm`, the same at 32 and at 64 bits (R57, R96). -/
def immInt (imm : BitVec 16) : Int := (immSigned imm).toInt

/-- The integer `imm_us` (R57). -/
def immNat (imm : BitVec 16) : Nat := (immUnsigned imm).toNat

/-- `WriteResult32(r, p)` under the setting `m` of P_W32_HI (R85). -/
def RegFile.writeResult32 (m : W32Hi) (rf : RegFile) (r : Register) (p : Word) : RegFile :=
  match m with
  | .preserve => rf.write32 r .lo p
  | .sext => rf.write64 r (p.signExtend 64)

end Sys2Proof.Machine
end

