-- ==== Sys2Proof/Machine/Add.lean ====
section
/-! DEFINITION. The add family (R91 to R98). `addTrap32` and its like are the shared computations; `opAdd` and its like are
the Execution Unit's named operations (R7, R80), which take P_W32_HI as an argument; `execAdd` and its like are the
meanings `exec` calls: the operation under the machine's P_W32_HI, then the driver (R277). -/

namespace Sys2Proof.Machine

/-- A 32-bit signed addition into `dst`: the fault if the exact sum is out of range, else the write (R87, R91). -/
def addTrap32 (m : W32Hi) (dst : Register) (a b : Int) (rf : RegFile) : ExecResult :=
  if fitsSigned 32 (a + b) then .ok (rf.writeResult32 m dst (BitVec.ofInt 32 (a + b))) else .overflowFault

/-- A 64-bit signed addition into `dst` (R87, R95). -/
def addTrap64 (dst : Register) (a b : Int) (rf : RegFile) : ExecResult :=
  if fitsSigned 64 (a + b) then .ok (rf.write64 dst (BitVec.ofInt 64 (a + b))) else .overflowFault

/-- A 32-bit addition modulo 2^32 into `dst` (R93). -/
def addWrap32 (m : W32Hi) (dst : Register) (a b : Nat) (rf : RegFile) : ExecResult :=
  .ok (rf.writeResult32 m dst (BitVec.ofNat 32 ((a + b) % 2 ^ 32)))

/-- A 64-bit addition modulo 2^64 into `dst` (R97). -/
def addWrap64 (dst : Register) (a b : Nat) (rf : RegFile) : ExecResult :=
  .ok (rf.write64 dst (BitVec.ofNat 64 ((a + b) % 2 ^ 64)))

/-- add (R91). -/
def opAdd (m : W32Hi) (rs rt rd : Register) (rf : RegFile) : ExecResult :=
  addTrap32 m rd (s32 rf rs) (s32 rf rt) rf

/-- addi (R92). -/
def opAddi (m : W32Hi) (rs rt : Register) (imm : BitVec 16) (rf : RegFile) : ExecResult :=
  addTrap32 m rt (s32 rf rs) (immInt imm) rf

/-- addu (R93). -/
def opAddu (m : W32Hi) (rs rt rd : Register) (rf : RegFile) : ExecResult :=
  addWrap32 m rd (u32 rf rs) (u32 rf rt) rf

/-- addiu: the immediate is ZERO-extended (R94, 90_conflicts.md C3). -/
def opAddiu (m : W32Hi) (rs rt : Register) (imm : BitVec 16) (rf : RegFile) : ExecResult :=
  addWrap32 m rt (u32 rf rs) (immNat imm) rf

/-- dadd (R95). -/
def opDadd (rs rt rd : Register) (rf : RegFile) : ExecResult :=
  addTrap64 rd (s64 rf rs) (s64 rf rt) rf

/-- daddi: the immediate is sign-extended to 64 bits (R96, 90_conflicts.md C4). -/
def opDaddi (rs rt : Register) (imm : BitVec 16) (rf : RegFile) : ExecResult :=
  addTrap64 rt (s64 rf rs) (immInt imm) rf

/-- daddu (R97). -/
def opDaddu (rs rt rd : Register) (rf : RegFile) : ExecResult :=
  addWrap64 rd (u64 rf rs) (u64 rf rt) rf

/-- daddiu: the immediate is ZERO-extended (R98, D11). -/
def opDaddiu (rs rt : Register) (imm : BitVec 16) (rf : RegFile) : ExecResult :=
  addWrap64 rt (u64 rf rs) (immNat imm) rf

/-- ADD (R91); `shamt` is not read (R74). -/
def execAdd (rs rt rd : Register) (_shamt : BitVec 5) (s : State) : Host.Outcome State Fault Refusal :=
  .next (s.settle (opAdd Config.w32Hi rs rt rd s.rf))

/-- ADDI (R92). -/
def execAddi (rs rt : Register) (imm : BitVec 16) (s : State) : Host.Outcome State Fault Refusal :=
  .next (s.settle (opAddi Config.w32Hi rs rt imm s.rf))

/-- ADDU (R93). -/
def execAddu (rs rt rd : Register) (_shamt : BitVec 5) (s : State) : Host.Outcome State Fault Refusal :=
  .next (s.settle (opAddu Config.w32Hi rs rt rd s.rf))

/-- ADDIU (R94). -/
def execAddiu (rs rt : Register) (imm : BitVec 16) (s : State) : Host.Outcome State Fault Refusal :=
  .next (s.settle (opAddiu Config.w32Hi rs rt imm s.rf))

/-- DADD (R95). -/
def execDadd (rs rt rd : Register) (_shamt : BitVec 5) (s : State) : Host.Outcome State Fault Refusal :=
  .next (s.settle (opDadd rs rt rd s.rf))

/-- DADDI (R96). -/
def execDaddi (rs rt : Register) (imm : BitVec 16) (s : State) : Host.Outcome State Fault Refusal :=
  .next (s.settle (opDaddi rs rt imm s.rf))

/-- DADDU (R97). -/
def execDaddu (rs rt rd : Register) (_shamt : BitVec 5) (s : State) : Host.Outcome State Fault Refusal :=
  .next (s.settle (opDaddu rs rt rd s.rf))

/-- DADDIU (R98). -/
def execDaddiu (rs rt : Register) (imm : BitVec 16) (s : State) : Host.Outcome State Fault Refusal :=
  .next (s.settle (opDaddiu rs rt imm s.rf))

end Sys2Proof.Machine
end

