-- ==== Sys2Proof/Machine/Div.lean ====
section
/-! DEFINITION. The divide family (R99 to R105): quotient into `lo`, remainder into `hi`, both or neither (R82). With
divisor 0, `lo` takes the dividend and `hi` the draw P_DIV0_HI, and there is no fault (R101). -/

namespace Sys2Proof.Machine

/-- Commit a 32-bit quotient and remainder (R102, R103). -/
def commitDiv32 (m : W32Hi) (q r : Word) (rf : RegFile) : ExecResult :=
  .ok ((rf.writeResult32 m Register.lo q).writeResult32 m Register.hi r)

/-- Commit a 32-bit division by zero: the dividend and the draw (R101, R102, R103). -/
def commitDivZero32 (m : W32Hi) (draw : DWord) (a : Word) (rf : RegFile) : ExecResult :=
  .ok ((rf.writeResult32 m Register.lo a).write64 Register.hi draw)

/-- Commit a 64-bit quotient and remainder (R104, R105). -/
def commitDiv64 (q r : DWord) (rf : RegFile) : ExecResult :=
  .ok ((rf.write64 Register.lo q).write64 Register.hi r)

/-- div (R102): `q` truncates toward zero and `r = a - q * b` (R99); a quotient of 2^31 wraps (R100). -/
def opDiv (m : W32Hi) (draw : DWord) (rs rt : Register) (rf : RegFile) : ExecResult :=
  let a := s32 rf rs
  let b := s32 rf rt
  let q := a.tdiv b
  if b = 0 then commitDivZero32 m draw (BitVec.ofInt 32 a) rf
  else commitDiv32 m (BitVec.ofInt 32 q) (BitVec.ofInt 32 (a - q * b)) rf

/-- divu (R103). -/
def opDivu (m : W32Hi) (draw : DWord) (rs rt : Register) (rf : RegFile) : ExecResult :=
  let a := u32 rf rs
  let b := u32 rf rt
  let q := a / b
  if b = 0 then commitDivZero32 m draw (BitVec.ofNat 32 a) rf
  else commitDiv32 m (BitVec.ofNat 32 q) (BitVec.ofNat 32 (a - q * b)) rf

/-- ddiv (R104); a quotient of 2^63 wraps (R100). -/
def opDdiv (draw : DWord) (rs rt : Register) (rf : RegFile) : ExecResult :=
  let a := s64 rf rs
  let b := s64 rf rt
  let q := a.tdiv b
  if b = 0 then commitDiv64 (BitVec.ofInt 64 a) draw rf
  else commitDiv64 (BitVec.ofInt 64 q) (BitVec.ofInt 64 (a - q * b)) rf

/-- ddivu (R105). -/
def opDdivu (draw : DWord) (rs rt : Register) (rf : RegFile) : ExecResult :=
  let a := u64 rf rs
  let b := u64 rf rt
  let q := a / b
  if b = 0 then commitDiv64 (BitVec.ofNat 64 a) draw rf
  else commitDiv64 (BitVec.ofNat 64 q) (BitVec.ofNat 64 (a - q * b)) rf

/-- DIV (R102); `rd` and `shamt` are not used (R102). -/
def execDiv (rs rt _rd : Register) (_shamt : BitVec 5) (s : State) : Host.Outcome State Fault Refusal :=
  .next ((s.drawIf (s32 s.rf rt == 0)).settle (opDiv Config.w32Hi (Config.div0Hi s.draws) rs rt s.rf))

/-- DIVU (R103). -/
def execDivu (rs rt _rd : Register) (_shamt : BitVec 5) (s : State) : Host.Outcome State Fault Refusal :=
  .next ((s.drawIf (u32 s.rf rt == 0)).settle (opDivu Config.w32Hi (Config.div0Hi s.draws) rs rt s.rf))

/-- DDIV (R104). -/
def execDdiv (rs rt _rd : Register) (_shamt : BitVec 5) (s : State) : Host.Outcome State Fault Refusal :=
  .next ((s.drawIf (s64 s.rf rt == 0)).settle (opDdiv (Config.div0Hi s.draws) rs rt s.rf))

/-- DDIVU (R105). -/
def execDdivu (rs rt _rd : Register) (_shamt : BitVec 5) (s : State) : Host.Outcome State Fault Refusal :=
  .next ((s.drawIf (u64 s.rf rt == 0)).settle (opDdivu (Config.div0Hi s.draws) rs rt s.rf))

end Sys2Proof.Machine
end

