-- ==== Sys2Proof/Machine/FrFormat.lean ====
section
/-! DEFINITION. The FR-format (COP1) decode-only instructions (R151 to R197). CORE decodes each and executes none: `execute` returns
`Unimplemented` and changes nothing (R151, R83); the "architectural meaning" lines of the spec are informative and no rule
of CORE. Each meaning is the shared `unimplemented` (log entry 1). -/

namespace Sys2Proof.Machine

/-- MFC1, decode-only (R152). -/
def execMfc1 (ft fs fd : FPRegister) (func : BitVec 6) (s : State) :
    Host.Outcome State Fault Refusal := unimplemented (.mfc1 ft fs fd func) s

/-- DMFC1, decode-only (R153). -/
def execDmfc1 (ft fs fd : FPRegister) (func : BitVec 6) (s : State) :
    Host.Outcome State Fault Refusal := unimplemented (.dmfc1 ft fs fd func) s

/-- CFC1, decode-only (R154). -/
def execCfc1 (ft fs fd : FPRegister) (func : BitVec 6) (s : State) :
    Host.Outcome State Fault Refusal := unimplemented (.cfc1 ft fs fd func) s

/-- MTC1, decode-only (R155). -/
def execMtc1 (ft fs fd : FPRegister) (func : BitVec 6) (s : State) :
    Host.Outcome State Fault Refusal := unimplemented (.mtc1 ft fs fd func) s

/-- DMTC1, decode-only (R156). -/
def execDmtc1 (ft fs fd : FPRegister) (func : BitVec 6) (s : State) :
    Host.Outcome State Fault Refusal := unimplemented (.dmtc1 ft fs fd func) s

/-- CTC1, decode-only (R157). -/
def execCtc1 (ft fs fd : FPRegister) (func : BitVec 6) (s : State) :
    Host.Outcome State Fault Refusal := unimplemented (.ctc1 ft fs fd func) s

/-- BC1F, decode-only (R158). -/
def execBc1f (cc : BitVec 3) (offset : BitVec 16) (s : State) :
    Host.Outcome State Fault Refusal := unimplemented (.bc1f cc offset) s

/-- BC1T, decode-only (R159). -/
def execBc1t (cc : BitVec 3) (offset : BitVec 16) (s : State) :
    Host.Outcome State Fault Refusal := unimplemented (.bc1t cc offset) s

/-- BC1FL, decode-only (R160). -/
def execBc1fl (cc : BitVec 3) (offset : BitVec 16) (s : State) :
    Host.Outcome State Fault Refusal := unimplemented (.bc1fl cc offset) s

/-- BC1TL, decode-only (R161). -/
def execBc1tl (cc : BitVec 3) (offset : BitVec 16) (s : State) :
    Host.Outcome State Fault Refusal := unimplemented (.bc1tl cc offset) s

/-- ADD.fmt, decode-only (R162). -/
def execAddFmt (fmt : ArithFmt) (ft fs fd : FPRegister) (s : State) :
    Host.Outcome State Fault Refusal := unimplemented (.addFmt fmt ft fs fd) s

/-- SUB.fmt, decode-only (R163). -/
def execSubFmt (fmt : ArithFmt) (ft fs fd : FPRegister) (s : State) :
    Host.Outcome State Fault Refusal := unimplemented (.subFmt fmt ft fs fd) s

/-- MUL.fmt, decode-only (R164). -/
def execMulFmt (fmt : ArithFmt) (ft fs fd : FPRegister) (s : State) :
    Host.Outcome State Fault Refusal := unimplemented (.mulFmt fmt ft fs fd) s

/-- DIV.fmt, decode-only (R165). -/
def execDivFmt (fmt : ArithFmt) (ft fs fd : FPRegister) (s : State) :
    Host.Outcome State Fault Refusal := unimplemented (.divFmt fmt ft fs fd) s

/-- SQRT.fmt, decode-only (R166). -/
def execSqrtFmt (fmt : ArithFmt) (ft fs fd : FPRegister) (s : State) :
    Host.Outcome State Fault Refusal := unimplemented (.sqrtFmt fmt ft fs fd) s

/-- ABS.fmt, decode-only (R167). -/
def execAbsFmt (fmt : ArithFmt) (ft fs fd : FPRegister) (s : State) :
    Host.Outcome State Fault Refusal := unimplemented (.absFmt fmt ft fs fd) s

/-- MOV.fmt, decode-only (R168). -/
def execMovFmt (fmt : ArithFmt) (ft fs fd : FPRegister) (s : State) :
    Host.Outcome State Fault Refusal := unimplemented (.movFmt fmt ft fs fd) s

/-- NEG.fmt, decode-only (R169). -/
def execNegFmt (fmt : ArithFmt) (ft fs fd : FPRegister) (s : State) :
    Host.Outcome State Fault Refusal := unimplemented (.negFmt fmt ft fs fd) s

/-- ROUND.L.fmt, decode-only (R170). -/
def execRoundLFmt (fmt : ArithFmt) (ft fs fd : FPRegister) (s : State) :
    Host.Outcome State Fault Refusal := unimplemented (.roundLFmt fmt ft fs fd) s

/-- TRUNC.L.fmt, decode-only (R171). -/
def execTruncLFmt (fmt : ArithFmt) (ft fs fd : FPRegister) (s : State) :
    Host.Outcome State Fault Refusal := unimplemented (.truncLFmt fmt ft fs fd) s

/-- CEIL.L.fmt, decode-only (R172). -/
def execCeilLFmt (fmt : ArithFmt) (ft fs fd : FPRegister) (s : State) :
    Host.Outcome State Fault Refusal := unimplemented (.ceilLFmt fmt ft fs fd) s

/-- FLOOR.L.fmt, decode-only (R173). -/
def execFloorLFmt (fmt : ArithFmt) (ft fs fd : FPRegister) (s : State) :
    Host.Outcome State Fault Refusal := unimplemented (.floorLFmt fmt ft fs fd) s

/-- ROUND.W.fmt, decode-only (R174). -/
def execRoundWFmt (fmt : ArithFmt) (ft fs fd : FPRegister) (s : State) :
    Host.Outcome State Fault Refusal := unimplemented (.roundWFmt fmt ft fs fd) s

/-- TRUNC.W.fmt, decode-only (R175). -/
def execTruncWFmt (fmt : ArithFmt) (ft fs fd : FPRegister) (s : State) :
    Host.Outcome State Fault Refusal := unimplemented (.truncWFmt fmt ft fs fd) s

/-- CEIL.W.fmt, decode-only (R176). -/
def execCeilWFmt (fmt : ArithFmt) (ft fs fd : FPRegister) (s : State) :
    Host.Outcome State Fault Refusal := unimplemented (.ceilWFmt fmt ft fs fd) s

/-- FLOOR.W.fmt, decode-only (R177). -/
def execFloorWFmt (fmt : ArithFmt) (ft fs fd : FPRegister) (s : State) :
    Host.Outcome State Fault Refusal := unimplemented (.floorWFmt fmt ft fs fd) s

/-- CVT.S.fmt, decode-only (R178). -/
def execCvtSFmt (fmt : ArithFmt) (ft fs fd : FPRegister) (s : State) :
    Host.Outcome State Fault Refusal := unimplemented (.cvtSFmt fmt ft fs fd) s

/-- CVT.D.fmt, decode-only (R179). -/
def execCvtDFmt (fmt : ArithFmt) (ft fs fd : FPRegister) (s : State) :
    Host.Outcome State Fault Refusal := unimplemented (.cvtDFmt fmt ft fs fd) s

/-- CVT.W.fmt, decode-only (R180). -/
def execCvtWFmt (fmt : ArithFmt) (ft fs fd : FPRegister) (s : State) :
    Host.Outcome State Fault Refusal := unimplemented (.cvtWFmt fmt ft fs fd) s

/-- CVT.L.fmt, decode-only (R181). -/
def execCvtLFmt (fmt : ArithFmt) (ft fs fd : FPRegister) (s : State) :
    Host.Outcome State Fault Refusal := unimplemented (.cvtLFmt fmt ft fs fd) s

/-- C.F.fmt, decode-only (R182). -/
def execCFFmt (fmt : ArithFmt) (ft fs fd : FPRegister) (s : State) :
    Host.Outcome State Fault Refusal := unimplemented (.cFFmt fmt ft fs fd) s

/-- C.UN.fmt, decode-only (R183). -/
def execCUnFmt (fmt : ArithFmt) (ft fs fd : FPRegister) (s : State) :
    Host.Outcome State Fault Refusal := unimplemented (.cUnFmt fmt ft fs fd) s

/-- C.EQ.fmt, decode-only (R184). -/
def execCEqFmt (fmt : ArithFmt) (ft fs fd : FPRegister) (s : State) :
    Host.Outcome State Fault Refusal := unimplemented (.cEqFmt fmt ft fs fd) s

/-- C.UEQ.fmt, decode-only (R185). -/
def execCUeqFmt (fmt : ArithFmt) (ft fs fd : FPRegister) (s : State) :
    Host.Outcome State Fault Refusal := unimplemented (.cUeqFmt fmt ft fs fd) s

/-- C.OLT.fmt, decode-only (R186). -/
def execCOltFmt (fmt : ArithFmt) (ft fs fd : FPRegister) (s : State) :
    Host.Outcome State Fault Refusal := unimplemented (.cOltFmt fmt ft fs fd) s

/-- C.ULT.fmt, decode-only (R187). -/
def execCUltFmt (fmt : ArithFmt) (ft fs fd : FPRegister) (s : State) :
    Host.Outcome State Fault Refusal := unimplemented (.cUltFmt fmt ft fs fd) s

/-- C.OLE.fmt, decode-only (R188). -/
def execCOleFmt (fmt : ArithFmt) (ft fs fd : FPRegister) (s : State) :
    Host.Outcome State Fault Refusal := unimplemented (.cOleFmt fmt ft fs fd) s

/-- C.ULE.fmt, decode-only (R189). -/
def execCUleFmt (fmt : ArithFmt) (ft fs fd : FPRegister) (s : State) :
    Host.Outcome State Fault Refusal := unimplemented (.cUleFmt fmt ft fs fd) s

/-- C.SF.fmt, decode-only (R190). -/
def execCSfFmt (fmt : ArithFmt) (ft fs fd : FPRegister) (s : State) :
    Host.Outcome State Fault Refusal := unimplemented (.cSfFmt fmt ft fs fd) s

/-- C.NGLE.fmt, decode-only (R191). -/
def execCNgleFmt (fmt : ArithFmt) (ft fs fd : FPRegister) (s : State) :
    Host.Outcome State Fault Refusal := unimplemented (.cNgleFmt fmt ft fs fd) s

/-- C.SEQ.fmt, decode-only (R192). -/
def execCSeqFmt (fmt : ArithFmt) (ft fs fd : FPRegister) (s : State) :
    Host.Outcome State Fault Refusal := unimplemented (.cSeqFmt fmt ft fs fd) s

/-- C.NGL.fmt, decode-only (R193). -/
def execCNglFmt (fmt : ArithFmt) (ft fs fd : FPRegister) (s : State) :
    Host.Outcome State Fault Refusal := unimplemented (.cNglFmt fmt ft fs fd) s

/-- C.LT.fmt, decode-only (R194). -/
def execCLtFmt (fmt : ArithFmt) (ft fs fd : FPRegister) (s : State) :
    Host.Outcome State Fault Refusal := unimplemented (.cLtFmt fmt ft fs fd) s

/-- C.NGE.fmt, decode-only (R195). -/
def execCNgeFmt (fmt : ArithFmt) (ft fs fd : FPRegister) (s : State) :
    Host.Outcome State Fault Refusal := unimplemented (.cNgeFmt fmt ft fs fd) s

/-- C.LE.fmt, decode-only (R196). -/
def execCLeFmt (fmt : ArithFmt) (ft fs fd : FPRegister) (s : State) :
    Host.Outcome State Fault Refusal := unimplemented (.cLeFmt fmt ft fs fd) s

/-- C.NGT.fmt, decode-only (R197). -/
def execCNgtFmt (fmt : ArithFmt) (ft fs fd : FPRegister) (s : State) :
    Host.Outcome State Fault Refusal := unimplemented (.cNgtFmt fmt ft fs fd) s

end Sys2Proof.Machine
end

