-- ==== Sys2Proof/Machine/IFormat.lean ====
section
/-! DEFINITION. The I-format and REGIMM decode-only instructions (R201 to R257). CORE decodes each and executes none: `execute` returns
`Unimplemented` and changes nothing (R201, R83); the "architectural meaning" lines of the spec are informative and no rule
of CORE. Each meaning is the shared `unimplemented` (log entry 1). -/

namespace Sys2Proof.Machine

/-- BEQ, decode-only (R202). -/
def execBeq (rs rt : Register) (imm : BitVec 16) (s : State) :
    Host.Outcome State Fault Refusal := unimplemented (.beq rs rt imm) s

/-- BNE, decode-only (R203). -/
def execBne (rs rt : Register) (imm : BitVec 16) (s : State) :
    Host.Outcome State Fault Refusal := unimplemented (.bne rs rt imm) s

/-- BLEZ, decode-only (R204). -/
def execBlez (rs rt : Register) (imm : BitVec 16) (s : State) :
    Host.Outcome State Fault Refusal := unimplemented (.blez rs rt imm) s

/-- BGTZ, decode-only (R205). -/
def execBgtz (rs rt : Register) (imm : BitVec 16) (s : State) :
    Host.Outcome State Fault Refusal := unimplemented (.bgtz rs rt imm) s

/-- SLTI, decode-only (R206). -/
def execSlti (rs rt : Register) (imm : BitVec 16) (s : State) :
    Host.Outcome State Fault Refusal := unimplemented (.slti rs rt imm) s

/-- SLTIU, decode-only (R207). -/
def execSltiu (rs rt : Register) (imm : BitVec 16) (s : State) :
    Host.Outcome State Fault Refusal := unimplemented (.sltiu rs rt imm) s

/-- ANDI, decode-only (R208). -/
def execAndi (rs rt : Register) (imm : BitVec 16) (s : State) :
    Host.Outcome State Fault Refusal := unimplemented (.andi rs rt imm) s

/-- ORI, decode-only (R209). -/
def execOri (rs rt : Register) (imm : BitVec 16) (s : State) :
    Host.Outcome State Fault Refusal := unimplemented (.ori rs rt imm) s

/-- XORI, decode-only (R210). -/
def execXori (rs rt : Register) (imm : BitVec 16) (s : State) :
    Host.Outcome State Fault Refusal := unimplemented (.xori rs rt imm) s

/-- LUI, decode-only (R211). -/
def execLui (rs rt : Register) (imm : BitVec 16) (s : State) :
    Host.Outcome State Fault Refusal := unimplemented (.lui rs rt imm) s

/-- BEQL, decode-only (R212). -/
def execBeql (rs rt : Register) (imm : BitVec 16) (s : State) :
    Host.Outcome State Fault Refusal := unimplemented (.beql rs rt imm) s

/-- BNEL, decode-only (R213). -/
def execBnel (rs rt : Register) (imm : BitVec 16) (s : State) :
    Host.Outcome State Fault Refusal := unimplemented (.bnel rs rt imm) s

/-- BLEZL, decode-only (R214). -/
def execBlezl (rs rt : Register) (imm : BitVec 16) (s : State) :
    Host.Outcome State Fault Refusal := unimplemented (.blezl rs rt imm) s

/-- BGTZL, decode-only (R215). -/
def execBgtzl (rs rt : Register) (imm : BitVec 16) (s : State) :
    Host.Outcome State Fault Refusal := unimplemented (.bgtzl rs rt imm) s

/-- LDL, decode-only (R216). -/
def execLdl (rs rt : Register) (imm : BitVec 16) (s : State) :
    Host.Outcome State Fault Refusal := unimplemented (.ldl rs rt imm) s

/-- LDR, decode-only (R217). -/
def execLdr (rs rt : Register) (imm : BitVec 16) (s : State) :
    Host.Outcome State Fault Refusal := unimplemented (.ldr rs rt imm) s

/-- LB, decode-only (R218). -/
def execLb (rs rt : Register) (imm : BitVec 16) (s : State) :
    Host.Outcome State Fault Refusal := unimplemented (.lb rs rt imm) s

/-- LH, decode-only (R219). -/
def execLh (rs rt : Register) (imm : BitVec 16) (s : State) :
    Host.Outcome State Fault Refusal := unimplemented (.lh rs rt imm) s

/-- LWL, decode-only (R220). -/
def execLwl (rs rt : Register) (imm : BitVec 16) (s : State) :
    Host.Outcome State Fault Refusal := unimplemented (.lwl rs rt imm) s

/-- LW, decode-only (R221). -/
def execLw (rs rt : Register) (imm : BitVec 16) (s : State) :
    Host.Outcome State Fault Refusal := unimplemented (.lw rs rt imm) s

/-- LBU, decode-only (R222). -/
def execLbu (rs rt : Register) (imm : BitVec 16) (s : State) :
    Host.Outcome State Fault Refusal := unimplemented (.lbu rs rt imm) s

/-- LHU, decode-only (R223). -/
def execLhu (rs rt : Register) (imm : BitVec 16) (s : State) :
    Host.Outcome State Fault Refusal := unimplemented (.lhu rs rt imm) s

/-- LWR, decode-only (R224). -/
def execLwr (rs rt : Register) (imm : BitVec 16) (s : State) :
    Host.Outcome State Fault Refusal := unimplemented (.lwr rs rt imm) s

/-- LWU, decode-only (R225). -/
def execLwu (rs rt : Register) (imm : BitVec 16) (s : State) :
    Host.Outcome State Fault Refusal := unimplemented (.lwu rs rt imm) s

/-- SB, decode-only (R226). -/
def execSb (rs rt : Register) (imm : BitVec 16) (s : State) :
    Host.Outcome State Fault Refusal := unimplemented (.sb rs rt imm) s

/-- SH, decode-only (R227). -/
def execSh (rs rt : Register) (imm : BitVec 16) (s : State) :
    Host.Outcome State Fault Refusal := unimplemented (.sh rs rt imm) s

/-- SWL, decode-only (R228). -/
def execSwl (rs rt : Register) (imm : BitVec 16) (s : State) :
    Host.Outcome State Fault Refusal := unimplemented (.swl rs rt imm) s

/-- SW, decode-only (R229). -/
def execSw (rs rt : Register) (imm : BitVec 16) (s : State) :
    Host.Outcome State Fault Refusal := unimplemented (.sw rs rt imm) s

/-- SDL, decode-only (R230). -/
def execSdl (rs rt : Register) (imm : BitVec 16) (s : State) :
    Host.Outcome State Fault Refusal := unimplemented (.sdl rs rt imm) s

/-- SDR, decode-only (R231). -/
def execSdr (rs rt : Register) (imm : BitVec 16) (s : State) :
    Host.Outcome State Fault Refusal := unimplemented (.sdr rs rt imm) s

/-- SWR, decode-only (R232). -/
def execSwr (rs rt : Register) (imm : BitVec 16) (s : State) :
    Host.Outcome State Fault Refusal := unimplemented (.swr rs rt imm) s

/-- LL, decode-only (R233). -/
def execLl (rs rt : Register) (imm : BitVec 16) (s : State) :
    Host.Outcome State Fault Refusal := unimplemented (.ll rs rt imm) s

/-- LWC1, decode-only (R234). -/
def execLwc1 (rs rt : Register) (imm : BitVec 16) (s : State) :
    Host.Outcome State Fault Refusal := unimplemented (.lwc1 rs rt imm) s

/-- LLD, decode-only (R235). -/
def execLld (rs rt : Register) (imm : BitVec 16) (s : State) :
    Host.Outcome State Fault Refusal := unimplemented (.lld rs rt imm) s

/-- LDC1, decode-only (R236). -/
def execLdc1 (rs rt : Register) (imm : BitVec 16) (s : State) :
    Host.Outcome State Fault Refusal := unimplemented (.ldc1 rs rt imm) s

/-- LD, decode-only (R237). -/
def execLd (rs rt : Register) (imm : BitVec 16) (s : State) :
    Host.Outcome State Fault Refusal := unimplemented (.ld rs rt imm) s

/-- SC, decode-only (R238). -/
def execSc (rs rt : Register) (imm : BitVec 16) (s : State) :
    Host.Outcome State Fault Refusal := unimplemented (.sc rs rt imm) s

/-- SWC1, decode-only (R239). -/
def execSwc1 (rs rt : Register) (imm : BitVec 16) (s : State) :
    Host.Outcome State Fault Refusal := unimplemented (.swc1 rs rt imm) s

/-- SCD, decode-only (R240). -/
def execScd (rs rt : Register) (imm : BitVec 16) (s : State) :
    Host.Outcome State Fault Refusal := unimplemented (.scd rs rt imm) s

/-- SDC1, decode-only (R241). -/
def execSdc1 (rs rt : Register) (imm : BitVec 16) (s : State) :
    Host.Outcome State Fault Refusal := unimplemented (.sdc1 rs rt imm) s

/-- SD, decode-only (R242). -/
def execSd (rs rt : Register) (imm : BitVec 16) (s : State) :
    Host.Outcome State Fault Refusal := unimplemented (.sd rs rt imm) s

/-- BLTZ, decode-only (R244). -/
def execBltz (rs : Register) (imm : BitVec 16) (s : State) :
    Host.Outcome State Fault Refusal := unimplemented (.bltz rs imm) s

/-- BGEZ, decode-only (R245). -/
def execBgez (rs : Register) (imm : BitVec 16) (s : State) :
    Host.Outcome State Fault Refusal := unimplemented (.bgez rs imm) s

/-- BLTZL, decode-only (R246). -/
def execBltzl (rs : Register) (imm : BitVec 16) (s : State) :
    Host.Outcome State Fault Refusal := unimplemented (.bltzl rs imm) s

/-- BGEZL, decode-only (R247). -/
def execBgezl (rs : Register) (imm : BitVec 16) (s : State) :
    Host.Outcome State Fault Refusal := unimplemented (.bgezl rs imm) s

/-- TGEI, decode-only (R248). -/
def execTgei (rs : Register) (imm : BitVec 16) (s : State) :
    Host.Outcome State Fault Refusal := unimplemented (.tgei rs imm) s

/-- TGEIU, decode-only (R249). -/
def execTgeiu (rs : Register) (imm : BitVec 16) (s : State) :
    Host.Outcome State Fault Refusal := unimplemented (.tgeiu rs imm) s

/-- TLTI, decode-only (R250). -/
def execTlti (rs : Register) (imm : BitVec 16) (s : State) :
    Host.Outcome State Fault Refusal := unimplemented (.tlti rs imm) s

/-- TLTIU, decode-only (R251). -/
def execTltiu (rs : Register) (imm : BitVec 16) (s : State) :
    Host.Outcome State Fault Refusal := unimplemented (.tltiu rs imm) s

/-- TEQI, decode-only (R252). -/
def execTeqi (rs : Register) (imm : BitVec 16) (s : State) :
    Host.Outcome State Fault Refusal := unimplemented (.teqi rs imm) s

/-- TNEI, decode-only (R253). -/
def execTnei (rs : Register) (imm : BitVec 16) (s : State) :
    Host.Outcome State Fault Refusal := unimplemented (.tnei rs imm) s

/-- BLTZAL, decode-only (R254). -/
def execBltzal (rs : Register) (imm : BitVec 16) (s : State) :
    Host.Outcome State Fault Refusal := unimplemented (.bltzal rs imm) s

/-- BGEZAL, decode-only (R255). -/
def execBgezal (rs : Register) (imm : BitVec 16) (s : State) :
    Host.Outcome State Fault Refusal := unimplemented (.bgezal rs imm) s

/-- BLTZALL, decode-only (R256). -/
def execBltzall (rs : Register) (imm : BitVec 16) (s : State) :
    Host.Outcome State Fault Refusal := unimplemented (.bltzall rs imm) s

/-- BGEZALL, decode-only (R257). -/
def execBgezall (rs : Register) (imm : BitVec 16) (s : State) :
    Host.Outcome State Fault Refusal := unimplemented (.bgezall rs imm) s

end Sys2Proof.Machine
end

