-- ==== Sys2Proof/Machine/JFormat.lean ====
section
/-! DEFINITION. The J-format decode-only instructions (R198 to R200). CORE decodes each and executes none: `execute` returns
`Unimplemented` and changes nothing (R198, R83); the "architectural meaning" lines of the spec are informative and no rule
of CORE. Each meaning is the shared `unimplemented` (log entry 1). -/

namespace Sys2Proof.Machine

/-- J, decode-only (R199). -/
def execJ (addr : BitVec 26) (s : State) :
    Host.Outcome State Fault Refusal := unimplemented (.j addr) s

/-- JAL, decode-only (R200). -/
def execJal (addr : BitVec 26) (s : State) :
    Host.Outcome State Fault Refusal := unimplemented (.jal addr) s

end Sys2Proof.Machine
end

