-- ==== Sys2Proof/Machine/RFormat.lean ====
section
/-! DEFINITION. The R-format (SPECIAL) decode-only instructions (R106 to R150). CORE decodes each and executes none: `execute` returns
`Unimplemented` and changes nothing (R106, R83); the "architectural meaning" lines of the spec are informative and no rule
of CORE. Each meaning is the shared `unimplemented` (log entry 1). -/

namespace Sys2Proof.Machine

/-- SLL, decode-only (R107). -/
def execSll (rs rt rd : Register) (shamt : BitVec 5) (s : State) :
    Host.Outcome State Fault Refusal := unimplemented (.sll rs rt rd shamt) s

/-- SRL, decode-only (R108). -/
def execSrl (rs rt rd : Register) (shamt : BitVec 5) (s : State) :
    Host.Outcome State Fault Refusal := unimplemented (.srl rs rt rd shamt) s

/-- SRA, decode-only (R109). -/
def execSra (rs rt rd : Register) (shamt : BitVec 5) (s : State) :
    Host.Outcome State Fault Refusal := unimplemented (.sra rs rt rd shamt) s

/-- SLLV, decode-only (R110). -/
def execSllv (rs rt rd : Register) (shamt : BitVec 5) (s : State) :
    Host.Outcome State Fault Refusal := unimplemented (.sllv rs rt rd shamt) s

/-- SRLV, decode-only (R111). -/
def execSrlv (rs rt rd : Register) (shamt : BitVec 5) (s : State) :
    Host.Outcome State Fault Refusal := unimplemented (.srlv rs rt rd shamt) s

/-- SRAV, decode-only (R112). -/
def execSrav (rs rt rd : Register) (shamt : BitVec 5) (s : State) :
    Host.Outcome State Fault Refusal := unimplemented (.srav rs rt rd shamt) s

/-- JR, decode-only (R113). -/
def execJr (rs rt rd : Register) (shamt : BitVec 5) (s : State) :
    Host.Outcome State Fault Refusal := unimplemented (.jr rs rt rd shamt) s

/-- JALR, decode-only (R114). -/
def execJalr (rs rt rd : Register) (shamt : BitVec 5) (s : State) :
    Host.Outcome State Fault Refusal := unimplemented (.jalr rs rt rd shamt) s

/-- SYSCALL, decode-only (R115). -/
def execSyscall (rs rt rd : Register) (shamt : BitVec 5) (s : State) :
    Host.Outcome State Fault Refusal := unimplemented (.syscall rs rt rd shamt) s

/-- BREAK, decode-only (R116). -/
def execBreak (rs rt rd : Register) (shamt : BitVec 5) (s : State) :
    Host.Outcome State Fault Refusal := unimplemented (.break_ rs rt rd shamt) s

/-- SYNC, decode-only (R117). -/
def execSync (rs rt rd : Register) (shamt : BitVec 5) (s : State) :
    Host.Outcome State Fault Refusal := unimplemented (.sync rs rt rd shamt) s

/-- MFHI, decode-only (R118). -/
def execMfhi (rs rt rd : Register) (shamt : BitVec 5) (s : State) :
    Host.Outcome State Fault Refusal := unimplemented (.mfhi rs rt rd shamt) s

/-- MTHI, decode-only (R119). -/
def execMthi (rs rt rd : Register) (shamt : BitVec 5) (s : State) :
    Host.Outcome State Fault Refusal := unimplemented (.mthi rs rt rd shamt) s

/-- MFLO, decode-only (R120). -/
def execMflo (rs rt rd : Register) (shamt : BitVec 5) (s : State) :
    Host.Outcome State Fault Refusal := unimplemented (.mflo rs rt rd shamt) s

/-- MTLO, decode-only (R121). -/
def execMtlo (rs rt rd : Register) (shamt : BitVec 5) (s : State) :
    Host.Outcome State Fault Refusal := unimplemented (.mtlo rs rt rd shamt) s

/-- DSLLV, decode-only (R122). -/
def execDsllv (rs rt rd : Register) (shamt : BitVec 5) (s : State) :
    Host.Outcome State Fault Refusal := unimplemented (.dsllv rs rt rd shamt) s

/-- DSRLV, decode-only (R123). -/
def execDsrlv (rs rt rd : Register) (shamt : BitVec 5) (s : State) :
    Host.Outcome State Fault Refusal := unimplemented (.dsrlv rs rt rd shamt) s

/-- DSRAV, decode-only (R124). -/
def execDsrav (rs rt rd : Register) (shamt : BitVec 5) (s : State) :
    Host.Outcome State Fault Refusal := unimplemented (.dsrav rs rt rd shamt) s

/-- MULT, decode-only (R125). -/
def execMult (rs rt rd : Register) (shamt : BitVec 5) (s : State) :
    Host.Outcome State Fault Refusal := unimplemented (.mult rs rt rd shamt) s

/-- MULTU, decode-only (R126). -/
def execMultu (rs rt rd : Register) (shamt : BitVec 5) (s : State) :
    Host.Outcome State Fault Refusal := unimplemented (.multu rs rt rd shamt) s

/-- DMULT, decode-only (R127). -/
def execDmult (rs rt rd : Register) (shamt : BitVec 5) (s : State) :
    Host.Outcome State Fault Refusal := unimplemented (.dmult rs rt rd shamt) s

/-- DMULTU, decode-only (R128). -/
def execDmultu (rs rt rd : Register) (shamt : BitVec 5) (s : State) :
    Host.Outcome State Fault Refusal := unimplemented (.dmultu rs rt rd shamt) s

/-- SUB, decode-only (R129). -/
def execSub (rs rt rd : Register) (shamt : BitVec 5) (s : State) :
    Host.Outcome State Fault Refusal := unimplemented (.sub rs rt rd shamt) s

/-- SUBU, decode-only (R130). -/
def execSubu (rs rt rd : Register) (shamt : BitVec 5) (s : State) :
    Host.Outcome State Fault Refusal := unimplemented (.subu rs rt rd shamt) s

/-- AND, decode-only (R131). -/
def execAnd (rs rt rd : Register) (shamt : BitVec 5) (s : State) :
    Host.Outcome State Fault Refusal := unimplemented (.and rs rt rd shamt) s

/-- OR, decode-only (R132). -/
def execOr (rs rt rd : Register) (shamt : BitVec 5) (s : State) :
    Host.Outcome State Fault Refusal := unimplemented (.or rs rt rd shamt) s

/-- XOR, decode-only (R133). -/
def execXor (rs rt rd : Register) (shamt : BitVec 5) (s : State) :
    Host.Outcome State Fault Refusal := unimplemented (.xor rs rt rd shamt) s

/-- NOR, decode-only (R134). -/
def execNor (rs rt rd : Register) (shamt : BitVec 5) (s : State) :
    Host.Outcome State Fault Refusal := unimplemented (.nor rs rt rd shamt) s

/-- SLT, decode-only (R135). -/
def execSlt (rs rt rd : Register) (shamt : BitVec 5) (s : State) :
    Host.Outcome State Fault Refusal := unimplemented (.slt rs rt rd shamt) s

/-- SLTU, decode-only (R136). -/
def execSltu (rs rt rd : Register) (shamt : BitVec 5) (s : State) :
    Host.Outcome State Fault Refusal := unimplemented (.sltu rs rt rd shamt) s

/-- DSUB, decode-only (R137). -/
def execDsub (rs rt rd : Register) (shamt : BitVec 5) (s : State) :
    Host.Outcome State Fault Refusal := unimplemented (.dsub rs rt rd shamt) s

/-- DSUBU, decode-only (R138). -/
def execDsubu (rs rt rd : Register) (shamt : BitVec 5) (s : State) :
    Host.Outcome State Fault Refusal := unimplemented (.dsubu rs rt rd shamt) s

/-- TGE, decode-only (R139). -/
def execTge (rs rt rd : Register) (shamt : BitVec 5) (s : State) :
    Host.Outcome State Fault Refusal := unimplemented (.tge rs rt rd shamt) s

/-- TGEU, decode-only (R140). -/
def execTgeu (rs rt rd : Register) (shamt : BitVec 5) (s : State) :
    Host.Outcome State Fault Refusal := unimplemented (.tgeu rs rt rd shamt) s

/-- TLT, decode-only (R141). -/
def execTlt (rs rt rd : Register) (shamt : BitVec 5) (s : State) :
    Host.Outcome State Fault Refusal := unimplemented (.tlt rs rt rd shamt) s

/-- TLTU, decode-only (R142). -/
def execTltu (rs rt rd : Register) (shamt : BitVec 5) (s : State) :
    Host.Outcome State Fault Refusal := unimplemented (.tltu rs rt rd shamt) s

/-- TEQ, decode-only (R143). -/
def execTeq (rs rt rd : Register) (shamt : BitVec 5) (s : State) :
    Host.Outcome State Fault Refusal := unimplemented (.teq rs rt rd shamt) s

/-- TNE, decode-only (R144). -/
def execTne (rs rt rd : Register) (shamt : BitVec 5) (s : State) :
    Host.Outcome State Fault Refusal := unimplemented (.tne rs rt rd shamt) s

/-- DSLL, decode-only (R145). -/
def execDsll (rs rt rd : Register) (shamt : BitVec 5) (s : State) :
    Host.Outcome State Fault Refusal := unimplemented (.dsll rs rt rd shamt) s

/-- DSRL, decode-only (R146). -/
def execDsrl (rs rt rd : Register) (shamt : BitVec 5) (s : State) :
    Host.Outcome State Fault Refusal := unimplemented (.dsrl rs rt rd shamt) s

/-- DSRA, decode-only (R147). -/
def execDsra (rs rt rd : Register) (shamt : BitVec 5) (s : State) :
    Host.Outcome State Fault Refusal := unimplemented (.dsra rs rt rd shamt) s

/-- DSLL32, decode-only (R148). -/
def execDsll32 (rs rt rd : Register) (shamt : BitVec 5) (s : State) :
    Host.Outcome State Fault Refusal := unimplemented (.dsll32 rs rt rd shamt) s

/-- DSRL32, decode-only (R149). -/
def execDsrl32 (rs rt rd : Register) (shamt : BitVec 5) (s : State) :
    Host.Outcome State Fault Refusal := unimplemented (.dsrl32 rs rt rd shamt) s

/-- DSRA32, decode-only (R150). -/
def execDsra32 (rs rt rd : Register) (shamt : BitVec 5) (s : State) :
    Host.Outcome State Fault Refusal := unimplemented (.dsra32 rs rt rd shamt) s

end Sys2Proof.Machine
end

