-- ==== Sys2Proof/Machine/Dispatch.lean ====
section
/-! DEFINITION. The dispatch over the decoded instruction alone (R80): one arm per constructor of `Instr`. -/

namespace Sys2Proof.Machine

def exec (i : Instr) (s : State) : Host.Outcome State Fault Refusal :=
  match i with
  | .sll rs rt rd shamt => Sys2Proof.Machine.execSll rs rt rd shamt s
  | .srl rs rt rd shamt => Sys2Proof.Machine.execSrl rs rt rd shamt s
  | .sra rs rt rd shamt => Sys2Proof.Machine.execSra rs rt rd shamt s
  | .sllv rs rt rd shamt => Sys2Proof.Machine.execSllv rs rt rd shamt s
  | .srlv rs rt rd shamt => Sys2Proof.Machine.execSrlv rs rt rd shamt s
  | .srav rs rt rd shamt => Sys2Proof.Machine.execSrav rs rt rd shamt s
  | .jr rs rt rd shamt => Sys2Proof.Machine.execJr rs rt rd shamt s
  | .jalr rs rt rd shamt => Sys2Proof.Machine.execJalr rs rt rd shamt s
  | .syscall rs rt rd shamt => Sys2Proof.Machine.execSyscall rs rt rd shamt s
  | .break_ rs rt rd shamt => Sys2Proof.Machine.execBreak rs rt rd shamt s
  | .sync rs rt rd shamt => Sys2Proof.Machine.execSync rs rt rd shamt s
  | .mfhi rs rt rd shamt => Sys2Proof.Machine.execMfhi rs rt rd shamt s
  | .mthi rs rt rd shamt => Sys2Proof.Machine.execMthi rs rt rd shamt s
  | .mflo rs rt rd shamt => Sys2Proof.Machine.execMflo rs rt rd shamt s
  | .mtlo rs rt rd shamt => Sys2Proof.Machine.execMtlo rs rt rd shamt s
  | .dsllv rs rt rd shamt => Sys2Proof.Machine.execDsllv rs rt rd shamt s
  | .dsrlv rs rt rd shamt => Sys2Proof.Machine.execDsrlv rs rt rd shamt s
  | .dsrav rs rt rd shamt => Sys2Proof.Machine.execDsrav rs rt rd shamt s
  | .mult rs rt rd shamt => Sys2Proof.Machine.execMult rs rt rd shamt s
  | .multu rs rt rd shamt => Sys2Proof.Machine.execMultu rs rt rd shamt s
  | .div rs rt rd shamt => Sys2Proof.Machine.execDiv rs rt rd shamt s
  | .divu rs rt rd shamt => Sys2Proof.Machine.execDivu rs rt rd shamt s
  | .dmult rs rt rd shamt => Sys2Proof.Machine.execDmult rs rt rd shamt s
  | .dmultu rs rt rd shamt => Sys2Proof.Machine.execDmultu rs rt rd shamt s
  | .ddiv rs rt rd shamt => Sys2Proof.Machine.execDdiv rs rt rd shamt s
  | .ddivu rs rt rd shamt => Sys2Proof.Machine.execDdivu rs rt rd shamt s
  | .add rs rt rd shamt => Sys2Proof.Machine.execAdd rs rt rd shamt s
  | .addu rs rt rd shamt => Sys2Proof.Machine.execAddu rs rt rd shamt s
  | .sub rs rt rd shamt => Sys2Proof.Machine.execSub rs rt rd shamt s
  | .subu rs rt rd shamt => Sys2Proof.Machine.execSubu rs rt rd shamt s
  | .and rs rt rd shamt => Sys2Proof.Machine.execAnd rs rt rd shamt s
  | .or rs rt rd shamt => Sys2Proof.Machine.execOr rs rt rd shamt s
  | .xor rs rt rd shamt => Sys2Proof.Machine.execXor rs rt rd shamt s
  | .nor rs rt rd shamt => Sys2Proof.Machine.execNor rs rt rd shamt s
  | .slt rs rt rd shamt => Sys2Proof.Machine.execSlt rs rt rd shamt s
  | .sltu rs rt rd shamt => Sys2Proof.Machine.execSltu rs rt rd shamt s
  | .dadd rs rt rd shamt => Sys2Proof.Machine.execDadd rs rt rd shamt s
  | .daddu rs rt rd shamt => Sys2Proof.Machine.execDaddu rs rt rd shamt s
  | .dsub rs rt rd shamt => Sys2Proof.Machine.execDsub rs rt rd shamt s
  | .dsubu rs rt rd shamt => Sys2Proof.Machine.execDsubu rs rt rd shamt s
  | .tge rs rt rd shamt => Sys2Proof.Machine.execTge rs rt rd shamt s
  | .tgeu rs rt rd shamt => Sys2Proof.Machine.execTgeu rs rt rd shamt s
  | .tlt rs rt rd shamt => Sys2Proof.Machine.execTlt rs rt rd shamt s
  | .tltu rs rt rd shamt => Sys2Proof.Machine.execTltu rs rt rd shamt s
  | .teq rs rt rd shamt => Sys2Proof.Machine.execTeq rs rt rd shamt s
  | .tne rs rt rd shamt => Sys2Proof.Machine.execTne rs rt rd shamt s
  | .dsll rs rt rd shamt => Sys2Proof.Machine.execDsll rs rt rd shamt s
  | .dsrl rs rt rd shamt => Sys2Proof.Machine.execDsrl rs rt rd shamt s
  | .dsra rs rt rd shamt => Sys2Proof.Machine.execDsra rs rt rd shamt s
  | .dsll32 rs rt rd shamt => Sys2Proof.Machine.execDsll32 rs rt rd shamt s
  | .dsrl32 rs rt rd shamt => Sys2Proof.Machine.execDsrl32 rs rt rd shamt s
  | .dsra32 rs rt rd shamt => Sys2Proof.Machine.execDsra32 rs rt rd shamt s
  | .mfc1 ft fs fd func => Sys2Proof.Machine.execMfc1 ft fs fd func s
  | .dmfc1 ft fs fd func => Sys2Proof.Machine.execDmfc1 ft fs fd func s
  | .cfc1 ft fs fd func => Sys2Proof.Machine.execCfc1 ft fs fd func s
  | .mtc1 ft fs fd func => Sys2Proof.Machine.execMtc1 ft fs fd func s
  | .dmtc1 ft fs fd func => Sys2Proof.Machine.execDmtc1 ft fs fd func s
  | .ctc1 ft fs fd func => Sys2Proof.Machine.execCtc1 ft fs fd func s
  | .bc1f cc offset => Sys2Proof.Machine.execBc1f cc offset s
  | .bc1t cc offset => Sys2Proof.Machine.execBc1t cc offset s
  | .bc1fl cc offset => Sys2Proof.Machine.execBc1fl cc offset s
  | .bc1tl cc offset => Sys2Proof.Machine.execBc1tl cc offset s
  | .addFmt fmt ft fs fd => Sys2Proof.Machine.execAddFmt fmt ft fs fd s
  | .subFmt fmt ft fs fd => Sys2Proof.Machine.execSubFmt fmt ft fs fd s
  | .mulFmt fmt ft fs fd => Sys2Proof.Machine.execMulFmt fmt ft fs fd s
  | .divFmt fmt ft fs fd => Sys2Proof.Machine.execDivFmt fmt ft fs fd s
  | .sqrtFmt fmt ft fs fd => Sys2Proof.Machine.execSqrtFmt fmt ft fs fd s
  | .absFmt fmt ft fs fd => Sys2Proof.Machine.execAbsFmt fmt ft fs fd s
  | .movFmt fmt ft fs fd => Sys2Proof.Machine.execMovFmt fmt ft fs fd s
  | .negFmt fmt ft fs fd => Sys2Proof.Machine.execNegFmt fmt ft fs fd s
  | .roundLFmt fmt ft fs fd => Sys2Proof.Machine.execRoundLFmt fmt ft fs fd s
  | .truncLFmt fmt ft fs fd => Sys2Proof.Machine.execTruncLFmt fmt ft fs fd s
  | .ceilLFmt fmt ft fs fd => Sys2Proof.Machine.execCeilLFmt fmt ft fs fd s
  | .floorLFmt fmt ft fs fd => Sys2Proof.Machine.execFloorLFmt fmt ft fs fd s
  | .roundWFmt fmt ft fs fd => Sys2Proof.Machine.execRoundWFmt fmt ft fs fd s
  | .truncWFmt fmt ft fs fd => Sys2Proof.Machine.execTruncWFmt fmt ft fs fd s
  | .ceilWFmt fmt ft fs fd => Sys2Proof.Machine.execCeilWFmt fmt ft fs fd s
  | .floorWFmt fmt ft fs fd => Sys2Proof.Machine.execFloorWFmt fmt ft fs fd s
  | .cvtSFmt fmt ft fs fd => Sys2Proof.Machine.execCvtSFmt fmt ft fs fd s
  | .cvtDFmt fmt ft fs fd => Sys2Proof.Machine.execCvtDFmt fmt ft fs fd s
  | .cvtWFmt fmt ft fs fd => Sys2Proof.Machine.execCvtWFmt fmt ft fs fd s
  | .cvtLFmt fmt ft fs fd => Sys2Proof.Machine.execCvtLFmt fmt ft fs fd s
  | .cFFmt fmt ft fs fd => Sys2Proof.Machine.execCFFmt fmt ft fs fd s
  | .cUnFmt fmt ft fs fd => Sys2Proof.Machine.execCUnFmt fmt ft fs fd s
  | .cEqFmt fmt ft fs fd => Sys2Proof.Machine.execCEqFmt fmt ft fs fd s
  | .cUeqFmt fmt ft fs fd => Sys2Proof.Machine.execCUeqFmt fmt ft fs fd s
  | .cOltFmt fmt ft fs fd => Sys2Proof.Machine.execCOltFmt fmt ft fs fd s
  | .cUltFmt fmt ft fs fd => Sys2Proof.Machine.execCUltFmt fmt ft fs fd s
  | .cOleFmt fmt ft fs fd => Sys2Proof.Machine.execCOleFmt fmt ft fs fd s
  | .cUleFmt fmt ft fs fd => Sys2Proof.Machine.execCUleFmt fmt ft fs fd s
  | .cSfFmt fmt ft fs fd => Sys2Proof.Machine.execCSfFmt fmt ft fs fd s
  | .cNgleFmt fmt ft fs fd => Sys2Proof.Machine.execCNgleFmt fmt ft fs fd s
  | .cSeqFmt fmt ft fs fd => Sys2Proof.Machine.execCSeqFmt fmt ft fs fd s
  | .cNglFmt fmt ft fs fd => Sys2Proof.Machine.execCNglFmt fmt ft fs fd s
  | .cLtFmt fmt ft fs fd => Sys2Proof.Machine.execCLtFmt fmt ft fs fd s
  | .cNgeFmt fmt ft fs fd => Sys2Proof.Machine.execCNgeFmt fmt ft fs fd s
  | .cLeFmt fmt ft fs fd => Sys2Proof.Machine.execCLeFmt fmt ft fs fd s
  | .cNgtFmt fmt ft fs fd => Sys2Proof.Machine.execCNgtFmt fmt ft fs fd s
  | .j addr => Sys2Proof.Machine.execJ addr s
  | .jal addr => Sys2Proof.Machine.execJal addr s
  | .beq rs rt imm => Sys2Proof.Machine.execBeq rs rt imm s
  | .bne rs rt imm => Sys2Proof.Machine.execBne rs rt imm s
  | .blez rs rt imm => Sys2Proof.Machine.execBlez rs rt imm s
  | .bgtz rs rt imm => Sys2Proof.Machine.execBgtz rs rt imm s
  | .addi rs rt imm => Sys2Proof.Machine.execAddi rs rt imm s
  | .addiu rs rt imm => Sys2Proof.Machine.execAddiu rs rt imm s
  | .slti rs rt imm => Sys2Proof.Machine.execSlti rs rt imm s
  | .sltiu rs rt imm => Sys2Proof.Machine.execSltiu rs rt imm s
  | .andi rs rt imm => Sys2Proof.Machine.execAndi rs rt imm s
  | .ori rs rt imm => Sys2Proof.Machine.execOri rs rt imm s
  | .xori rs rt imm => Sys2Proof.Machine.execXori rs rt imm s
  | .lui rs rt imm => Sys2Proof.Machine.execLui rs rt imm s
  | .beql rs rt imm => Sys2Proof.Machine.execBeql rs rt imm s
  | .bnel rs rt imm => Sys2Proof.Machine.execBnel rs rt imm s
  | .blezl rs rt imm => Sys2Proof.Machine.execBlezl rs rt imm s
  | .bgtzl rs rt imm => Sys2Proof.Machine.execBgtzl rs rt imm s
  | .daddi rs rt imm => Sys2Proof.Machine.execDaddi rs rt imm s
  | .daddiu rs rt imm => Sys2Proof.Machine.execDaddiu rs rt imm s
  | .ldl rs rt imm => Sys2Proof.Machine.execLdl rs rt imm s
  | .ldr rs rt imm => Sys2Proof.Machine.execLdr rs rt imm s
  | .lb rs rt imm => Sys2Proof.Machine.execLb rs rt imm s
  | .lh rs rt imm => Sys2Proof.Machine.execLh rs rt imm s
  | .lwl rs rt imm => Sys2Proof.Machine.execLwl rs rt imm s
  | .lw rs rt imm => Sys2Proof.Machine.execLw rs rt imm s
  | .lbu rs rt imm => Sys2Proof.Machine.execLbu rs rt imm s
  | .lhu rs rt imm => Sys2Proof.Machine.execLhu rs rt imm s
  | .lwr rs rt imm => Sys2Proof.Machine.execLwr rs rt imm s
  | .lwu rs rt imm => Sys2Proof.Machine.execLwu rs rt imm s
  | .sb rs rt imm => Sys2Proof.Machine.execSb rs rt imm s
  | .sh rs rt imm => Sys2Proof.Machine.execSh rs rt imm s
  | .swl rs rt imm => Sys2Proof.Machine.execSwl rs rt imm s
  | .sw rs rt imm => Sys2Proof.Machine.execSw rs rt imm s
  | .sdl rs rt imm => Sys2Proof.Machine.execSdl rs rt imm s
  | .sdr rs rt imm => Sys2Proof.Machine.execSdr rs rt imm s
  | .swr rs rt imm => Sys2Proof.Machine.execSwr rs rt imm s
  | .ll rs rt imm => Sys2Proof.Machine.execLl rs rt imm s
  | .lwc1 rs rt imm => Sys2Proof.Machine.execLwc1 rs rt imm s
  | .lld rs rt imm => Sys2Proof.Machine.execLld rs rt imm s
  | .ldc1 rs rt imm => Sys2Proof.Machine.execLdc1 rs rt imm s
  | .ld rs rt imm => Sys2Proof.Machine.execLd rs rt imm s
  | .sc rs rt imm => Sys2Proof.Machine.execSc rs rt imm s
  | .swc1 rs rt imm => Sys2Proof.Machine.execSwc1 rs rt imm s
  | .scd rs rt imm => Sys2Proof.Machine.execScd rs rt imm s
  | .sdc1 rs rt imm => Sys2Proof.Machine.execSdc1 rs rt imm s
  | .sd rs rt imm => Sys2Proof.Machine.execSd rs rt imm s
  | .bltz rs imm => Sys2Proof.Machine.execBltz rs imm s
  | .bgez rs imm => Sys2Proof.Machine.execBgez rs imm s
  | .bltzl rs imm => Sys2Proof.Machine.execBltzl rs imm s
  | .bgezl rs imm => Sys2Proof.Machine.execBgezl rs imm s
  | .tgei rs imm => Sys2Proof.Machine.execTgei rs imm s
  | .tgeiu rs imm => Sys2Proof.Machine.execTgeiu rs imm s
  | .tlti rs imm => Sys2Proof.Machine.execTlti rs imm s
  | .tltiu rs imm => Sys2Proof.Machine.execTltiu rs imm s
  | .teqi rs imm => Sys2Proof.Machine.execTeqi rs imm s
  | .tnei rs imm => Sys2Proof.Machine.execTnei rs imm s
  | .bltzal rs imm => Sys2Proof.Machine.execBltzal rs imm s
  | .bgezal rs imm => Sys2Proof.Machine.execBgezal rs imm s
  | .bltzall rs imm => Sys2Proof.Machine.execBltzall rs imm s
  | .bgezall rs imm => Sys2Proof.Machine.execBgezall rs imm s

end Sys2Proof.Machine
end

