-- ==== Sys2Proof/Machine/Fetch.lean ====
section
/-! DEFINITION. Reading instruction words: `decode` at an index (R72), `decode_all` and its sequences (R39, R71), the
driver's part before `execute` (R277), and placing a word where the driver reads next. -/

namespace Sys2Proof.Machine

/-- `decode(words, index)` (R69): refused with `IndexOutOfRange` unless `0 <= index < length(words)` (R72, R262). -/
def decodeAt (words : List Word) (index : Int) : Except Refusal DecodeResult :=
  match index with
  | .ofNat n =>
    match words[n]? with
    | some w => .ok (decode w)
    | none => .error .indexOutOfRange
  | .negSucc _ => .error .indexOutOfRange

/-- `decode_all(words)` (R71): one result per word, in index order; an undecodable word does not end it. -/
def decodeAll (words : List Word) : List DecodeResult := words.map decode

/-- A new sequence over `words`, with no element produced (R39). -/
def DecodeSeq.new (words : List Word) : DecodeSeq := { words := words, pos := 0 }

/-- Take the next element of a sequence (R39): the result of `decode(words, pos)`, and the position moves on by one;
`none`, and no change, when the sequence is exhausted. -/
def DecodeSeq.next (q : DecodeSeq) : Option DecodeResult × DecodeSeq :=
  match decodeAt q.words q.pos with
  | .ok r => (some r, { q with pos := q.pos + 1 })
  | .error _ => (none, q)

/-- A call of `decode_all(words)`: a new sequence beside those already made, none of which it touches (R39). The answer
names it by its place in `seqs` (log entry 11). -/
def State.decodeAllNew (s : State) (words : List Word) : Nat × State :=
  (s.seqs.length, { s with seqs := s.seqs ++ [DecodeSeq.new words] })

/-- Take the next element of the sequence named `n` (R39). No call returns a name beyond `seqs`; under such a name there is
nothing to take (log entry 11). -/
def State.decodeAllNext (s : State) (n : Nat) : Option DecodeResult × State :=
  match s.seqs[n]? with
  | some q => (q.next.1, { s with seqs := s.seqs.set n q.next.2 })
  | none => (none, s)

/-- What the driver does before `execute` (R277): the step is over, or an instruction is to be executed. -/
inductive Fetched where
  | over (o : Host.Outcome State Fault Refusal)
  | execute (i : Instr)

/-- The driver's step up to `execute` (R277). A run that has ended stays as it is (log entry 3). At the end of the
sequence the run is done; an undecodable word ends it with that fault; an index beyond the end, which no run reaches, is
refused (R262, log entry 4). -/
def fetch (s : State) : Fetched :=
  match s.status with
  | .done => .over (.next s)
  | .halted _ => .over (.next s)
  | .running =>
    if s.k = s.words.length then .over (.next s.finish)
    else
      match decodeAt s.words s.k with
      | .error r => .over (.refused r)
      | .ok (.unknownEncoding f c) => .over (.next (s.halt (.fault (.unknownEncoding f c))))
      | .ok (.ok i) => .execute i

/-- The word sequence with `w` at position `k`: the words before it stay (zero words are added where the sequence ends
before `k`), and so do the words after it. -/
def placeWord (words : List Word) (k : Nat) (w : Word) : List Word :=
  words.take k ++ List.replicate (k - words.length) 0 ++ w :: words.drop (k + 1)

/-- The state whose next step reads `w`: `w` placed at the driver's index, and the driver running (R277; log entry 12). -/
def State.withWord (s : State) (w : Word) : State :=
  { s with words := placeWord s.words s.k w, status := .running }

end Sys2Proof.Machine
end

