-- ==== Sys2Proof/Machine/Step.lean ====
section
/-! DEFINITION. One step of the machine: one step of the spec's reference driver (R277). -/

namespace Sys2Proof.Machine

/-- One step of the reference driver (R277): what comes before `execute`, then the instruction. -/
def step (s : State) : Host.Outcome State Fault Refusal :=
  match fetch s with
  | .over o => o
  | .execute i => exec i s

/-- `s` with a table row's word where `step` reads its next instruction (log entry 12). -/
def State.withFetchWord (s : State) (nbits w : Nat) : State :=
  s.withWord (BitVec.ofNat 32 (w % 2 ^ nbits))

end Sys2Proof.Machine
end

