-- ==== Sys2Proof/Safety.lean ====
section
/-! DEFINITION. The terms the claims are stated in: the dispatch table of executed operations (R80), the machine's
invariant, what a step leaves alone, and the run over a sequence decoded ahead (R279). -/

namespace Sys2Proof

/-- The R-format functions the dispatch table of R80 lists. -/
def RFunc.isExecuted : RFunc → Bool
  | .add | .addu | .dadd | .daddu | .div | .divu | .ddiv | .ddivu => true
  | _ => false

/-- The I-format opcodes the dispatch table of R80 lists. -/
def IOpcode.isExecuted : IOpcode → Bool
  | .addi | .addiu | .daddi | .daddiu => true
  | _ => false

/-- The four divisions (R102 to R105). -/
def RFunc.isDivision : RFunc → Bool
  | .div | .divu | .ddiv | .ddivu => true
  | _ => false

/-- The decoded instructions the dispatch table of R80 lists: eight R-format functions and four I-format opcodes. -/
def Shape.isExecuted : Shape → Bool
  | .r _ _ _ _ f => f.isExecuted
  | .fr _ _ _ _ _ _ _ => false
  | .j _ _ => false
  | .i op _ _ _ _ _ => op.isExecuted

/-- The decoded instruction is one of the four divisions. -/
def Shape.isDivision : Shape → Bool
  | .r _ _ _ _ f => f.isDivision
  | .fr _ _ _ _ _ _ _ => false
  | .j _ _ => false
  | .i _ _ _ _ _ _ => false

/-- The registers an executed instruction writes: `rd` or `rt` for an addition, `lo` and `hi` for a division (R91 to R98,
R102 to R105); a decode-only instruction writes none (R83). -/
def Shape.dests : Shape → List Register
  | .r _ _ rd _ f =>
    if f.isDivision then [Register.lo, Register.hi] else if f.isExecuted then [rd] else []
  | .fr _ _ _ _ _ _ _ => []
  | .j _ _ => []
  | .i op _ rt _ _ _ => if op.isExecuted then [rt] else []

namespace Machine

/-- `x[r]` holds the 32-bit result `p` as `WriteResult32` leaves it: the lo half is `p`, the hi half keeps its bits or takes
copies of bit 31 of `p` (R85); with `r0` as destination nothing is written (R89). -/
def Holds32 (m : W32Hi) (rf rf' : RegFile) (r : Register) (p : Word) : Prop :=
  (r = Register.zero → rf' = rf) ∧
  (r ≠ Register.zero → rf'.readLo r = p ∧
    rf'.readHi r = match m with
      | .preserve => rf.readHi r
      | .sext => if p.getLsbD 31 then BitVec.allOnes 32 else 0)

/-- `x[r]` holds the 64-bit result `p` as `Write64` leaves it (R86, R30); with `r0` nothing is written (R89). -/
def Holds64 (rf rf' : RegFile) (r : Register) (p : DWord) : Prop :=
  (r = Register.zero → rf' = rf) ∧ (r ≠ Register.zero → rf'.read r = p)

/-- The exact integer `v` lies in the signed range of 32 bits (R10, R91). -/
def InRange32 (v : Int) : Prop := -2 ^ 31 ≤ v ∧ v ≤ 2 ^ 31 - 1

/-- The exact integer `v` lies in the signed range of 64 bits (R10, R95). -/
def InRange64 (v : Int) : Prop := -2 ^ 63 ≤ v ∧ v ≤ 2 ^ 63 - 1

/-- The state after an `OverflowFault` of the instruction at the index: the outcome is recorded, and nothing else differs
(R82, R277). -/
def Overflowed (s : State) : State := { s with status := .halted (.fault .overflowFault) }

/-- The state after the refusal `Unimplemented(i)`: the outcome is recorded, and nothing else differs (R82, R83, R277). -/
def Refused (i : Instr) (s : State) : State := { s with status := .halted (.refusal (.unimplemented i)) }

/-- The elements given when the `decode_all` sequences named in the list are asked in that order, each with the name it was
asked under, and the state after (R39). -/
def State.takes : List Nat → State → List (Nat × Option DecodeResult) × State
  | [], s => ([], s)
  | n :: ns, s =>
    let (r, s') := s.decodeAllNext n
    let (rs, t) := s'.takes ns
    ((n, r) :: rs, t)

/-- The machine's invariant: slot `r0` holds 0 (R26), the index lies in the sequence or at its end, where alone the run
is done (R277, R278), a halted run's index is at the instruction that stopped it (R277), and no `decode_all` sequence's
position passes the end of its words (R39). -/
structure Inv (s : State) : Prop where
  zero : s.rf.slots[0] = 0
  index : s.k ≤ s.words.length
  done : s.status = .done → s.k = s.words.length
  halted : ∀ h, s.status = .halted h → s.k < s.words.length
  seq : ∀ q ∈ s.seqs, q.pos ≤ q.words.length

/-- Every register outside `dests` reads as before, and so does everything a step of the driver does not name: the word
sequence and the `decode_all` sequences. -/
def Frame (dests : List Register) (s t : State) : Prop :=
  (∀ r, r ∉ dests → t.rf.read r = s.rf.read r) ∧ t.words = s.words ∧ t.seqs = s.seqs

/-- The whole outcome of an instruction that retires: the frame, the index one further, the status and the number of
draws as before (R277). -/
def Retires (dests : List Register) (s t : State) : Prop :=
  Frame dests s t ∧ t.k = s.k + 1 ∧ t.status = s.status ∧ t.draws = s.draws

/-- The whole outcome of a division (R102 to R105): `lo` and `hi` apart, everything as before, the index one further, and
a draw of P_DIV0_HI taken exactly if the divisor is zero (R101). -/
def Divides (zeroDivisor : Prop) (s t : State) : Prop :=
  Frame [Register.lo, Register.hi] s t ∧ t.k = s.k + 1 ∧ t.status = s.status ∧
  (zeroDivisor → t.draws = s.draws + 1) ∧ (¬ zeroDivisor → t.draws = s.draws)

/-- The two ends of a run (R277, R278): done with the index at the end of the sequence, or halted. -/
def Ended (s : State) : Prop := (s.status = .done ∧ s.k = s.words.length) ∨ ∃ h, s.status = .halted h

/-- Executing the elements of a `decode_all` sequence in order, stopping at the first that is an `UnknownEncoding` or
whose execution does not return `Ok` (R279). -/
def runDecoded : List DecodeResult → State → State
  | [], s => s.finish
  | .unknownEncoding f c :: _, s => s.halt (.fault (.unknownEncoding f c))
  | .ok i :: ds, s =>
    match exec i s with
    | .next t => if t.status = .running then runDecoded ds t else t
    | .fault _ => s
    | .refused _ => s

end Machine

end Sys2Proof
end

