-- ==== Sys2Proof/Certificates/Slice0/Obligations.lean ====
section
/-! DEFINITION. The statements for the provers. Each docstring says what it states and which rule of spec/ it rests on; a
statement marked as the model's choice names its log entry. No statement rests on the value of a constant of Config: each
holds for both settings of P_W32_HI and for every draw of P_DIV0_HI. CORE has no memory, flag or control register (R37, R38,
R42), so a frame speaks of registers, words, index, status, `decode_all` sequences and draws: all of the state. -/

section

open Sys2Proof Sys2Proof.Machine

/-- For 0 <= end <= start <= 31, extract(value, start, end, false) is the unsigned value of bits start down to end, and
extract(value, start, end, true) is that value less 2^w when the field's top bit is set, w = start - end + 1; so
extract of the whole word is its signed or unsigned value. (R12, R14, stated) -/
def Obligations.ExtractReadsField : Prop :=
  (∀ v : Word, extract v 31 0 true = .ok v.toInt ∧ extract v 31 0 false = .ok (v.toNat : Int)) ∧
  ∀ (v : Word) (start stop : Nat), stop ≤ start → start ≤ 31 →
    extract v start stop false = .ok ((v.toNat / 2 ^ stop % 2 ^ (start - stop + 1) : Nat) : Int) ∧
    extract v start stop true =
      .ok (((v.toNat / 2 ^ stop % 2 ^ (start - stop + 1) : Nat) : Int) -
        if v.getLsbD start then 2 ^ (start - stop + 1) else 0)

/-- extract fails with InvalidRange exactly when not 0 <= end <= start <= 31, and otherwise succeeds; each of the fixed
ranges the decoder reads is inside the domain and gives the field the decoder uses. (R13, R261, stated) -/
def Obligations.ExtractDomain : Prop :=
  (∀ (v : Word) (start stop : Int) (signed : Bool),
    extract v start stop signed = .error .invalidRange ↔ ¬ (0 ≤ stop ∧ stop ≤ start ∧ start ≤ 31)) ∧
  ∀ w : Word,
    extract w 31 26 false = .ok ((w.extractLsb' 26 6).toNat : Int) ∧
    extract w 25 21 false = .ok ((w.extractLsb' 21 5).toNat : Int) ∧
    extract w 20 16 false = .ok ((w.extractLsb' 16 5).toNat : Int) ∧
    extract w 15 11 false = .ok ((w.extractLsb' 11 5).toNat : Int) ∧
    extract w 10 6 false = .ok ((w.extractLsb' 6 5).toNat : Int) ∧
    extract w 5 0 false = .ok ((w.extractLsb' 0 6).toNat : Int) ∧
    extract w 25 0 false = .ok ((w.extractLsb' 0 26).toNat : Int) ∧
    extract w 15 0 false = .ok ((immUnsigned (w.extractLsb' 0 16)).toNat : Int) ∧
    extract w 15 0 true = .ok (immSigned (w.extractLsb' 0 16)).toInt

/-- The source's three decode vectors and one word of the spec's examples for each further family decode to the named
instruction with the named fields. (R52, R53, R54, R55, R91, R92, R102, R107, R152, R162, derived) -/
def Obligations.DecodesSampleWords : Prop :=
  decode 0x012A4020#32 = .ok (.add Register.t1 Register.t2 Register.t0 0) ∧
  decode 0x2204FFFF#32 = .ok (.addi Register.s0 Register.a0 0xFFFF) ∧
  decode 0x0800001E#32 = .ok (.j 30) ∧
  decode 0x012A001A#32 = .ok (.div Register.t1 Register.t2 Register.zero 0) ∧
  decode 0x000A4100#32 = .ok (.sll Register.zero Register.t2 Register.t0 4) ∧
  decode 0x44081000#32 = .ok (.mfc1 8 2 0 0) ∧
  decode 0x45010004#32 = .ok (.bc1t 0 4) ∧
  decode 0x46041000#32 = .ok (.addFmt .s 4 2 0) ∧
  decode 0x8D2A0008#32 = .ok (.lw Register.t1 Register.t2 8) ∧
  decode 0x05200004#32 = .ok (.bltz Register.t1 4) ∧
  decode 0x40000000#32 = .unknownEncoding .opcode 16

/-- For every well-formed instruction of every family, decode(encode(i)) = i: no bit of any field is dropped or moved.
(R52, R53, R54, R55, R56, R57, R60, R61, R69, derived) -/
def Obligations.DecodeOfEncode : Prop :=
  ∀ i : Instr, i.wellFormed = true → decode (encode i) = .ok i

/-- If a word decodes to an instruction, the instruction's encoding is that word, whatever the unchecked fields hold, and
its register fields name r0 to r31 only. (R56, R69, R74, derived) -/
def Obligations.EncodeOfDecode : Prop :=
  ∀ (w : Word) (i : Instr), decode w = .ok i → encode i = w ∧ i.wellFormed = true

/-- For the opcode, function, REGIMM, COP1 format and COP1 function sets: a code is looked up as a name exactly if it is
that name's code; and a word is an unknown opcode exactly if bits 31:26 are COP0 (16), COP2 (18), 19, 28 to 31, CACHE
(47), LWC2 (50), 51, LDC2 (54), SWC2 (58), 59 or SDC2 (62). (R63, R64, R65, R66, R67, R259, R271, derived) -/
def Obligations.ClosedSets : Prop :=
  (∀ c o, Opcode.lookup c = some o ↔ o.code = c) ∧
  (∀ c f, RFunc.lookup c = some f ↔ f.code = c) ∧
  (∀ c r, RegimmCode.lookup c = some r ↔ r.code = c) ∧
  (∀ c m, Cop1Fmt.lookup c = some m ↔ m.code = c) ∧
  (∀ c f, Cop1Func.lookup c = some f ↔ f.code = c) ∧
  ∀ w : Word, (∃ c, decode w = .unknownEncoding .opcode c) ↔
    (w.extractLsb' 26 6).toNat ∈ [16, 18, 19, 28, 29, 30, 31, 47, 50, 51, 54, 58, 59, 62]

/-- A word decodes to the R shape only with opcode SPECIAL (0), to FR only with COP1 (17), to J only with J (2) or JAL
(3), to I only with an I-class opcode; and conversely a decoding word with such an opcode has that shape. (R62,
stated) -/
def Obligations.FormatByOpcode : Prop :=
  ∀ (w : Word) (i : Instr), decode w = .ok i →
    ((∃ rs rt rd sh f, i.shape = .r rs rt rd sh f) ↔ w.extractLsb' 26 6 = 0) ∧
    ((∃ m ft fs fd f nd tf, i.shape = .fr m ft fs fd f nd tf) ↔ w.extractLsb' 26 6 = 17) ∧
    ((∃ op addr, i.shape = .j op addr) ↔ w.extractLsb' 26 6 = 2 ∨ w.extractLsb' 26 6 = 3) ∧
    ((∃ op rs rt imm immU c, i.shape = .i op rs rt imm immU c) ↔
      ∃ op, Opcode.lookup (w.extractLsb' 26 6) = some (.i op)) ∧
    Opcode.lookup (w.extractLsb' 26 6) = some i.shape.opcode

/-- A word with opcode 000000 and a function of the closed set decodes to the R shape with rs = bits 25:21, rt = bits
20:16, rd = bits 15:11, shamt = bits 10:6 and func = bits 5:0, whatever the fields hold. (R52, R58, stated) -/
def Obligations.DecodesRFields : Prop :=
  ∀ (w : Word) (f : RFunc), w.extractLsb' 26 6 = 0 → RFunc.lookup (w.extractLsb' 0 6) = some f →
    decodeShape w = .ok (.r (.ofBits (w.extractLsb' 21 5)) (.ofBits (w.extractLsb' 16 5))
      (.ofBits (w.extractLsb' 11 5)) (w.extractLsb' 6 5) f)

/-- A word with opcode 010001 and a format of the closed set has ft, fs, fd from bits 20:16, 15:11, 10:6; func is a
Cop1Func name only for S, D, W, L and the raw bits 5:0 otherwise; nd and tf are bits 17 and 16 for BC and none
otherwise; and fs, fd, func of a BC word are its 16-bit offset. (R53, R60, stated) -/
def Obligations.DecodesFrFields : Prop :=
  ∀ w : Word, w.extractLsb' 26 6 = 17 → ∀ m, Cop1Fmt.lookup (w.extractLsb' 21 5) = some m →
    let ft := FPRegister.ofBits (w.extractLsb' 16 5)
    let fs := FPRegister.ofBits (w.extractLsb' 11 5)
    let fd := FPRegister.ofBits (w.extractLsb' 6 5)
    let func := w.extractLsb' 0 6
    (∀ a f, m = .arith a → Cop1Func.lookup func = some f →
      decodeShape w = .ok (.fr m ft fs fd (.named f) none none)) ∧
    (∀ a, m = .arith a → Cop1Func.lookup func = none → decodeShape w = .error (.cop1Func, func.toNat)) ∧
    ((∀ a, m ≠ .arith a) → m ≠ .bc → decodeShape w = .ok (.fr m ft fs fd (.raw func) none none)) ∧
    (m = .bc → decodeShape w = .ok (.fr m ft fs fd (.raw func) (some (w.getLsbD 17)) (some (w.getLsbD 16))) ∧
      (fs.toBits ++ fd.toBits ++ func : BitVec 16) = w.extractLsb' 0 16)

/-- Every word with opcode 000010 decodes to J and every word with opcode 000011 to JAL, addr being the raw bits 25:0.
(R54, R59, stated) -/
def Obligations.DecodesJFields : Prop :=
  ∀ w : Word,
    (w.extractLsb' 26 6 = 2 → decodeShape w = .ok (.j .j (w.extractLsb' 0 26)) ∧ decode w = .ok (.j (w.extractLsb' 0 26))) ∧
    (w.extractLsb' 26 6 = 3 → decodeShape w = .ok (.j .jal (w.extractLsb' 0 26)) ∧ decode w = .ok (.jal (w.extractLsb' 0 26)))

/-- A word whose opcode is of the I class decodes with rs = bits 25:21, rt = bits 20:16 and both extensions of bits 15:0;
for REGIMM the code in bits 20:16 is looked up, a code outside the set being UnknownEncoding("regimm", code), and for
every other opcode regimm is none. (R55, R61, stated) -/
def Obligations.DecodesIFields : Prop :=
  ∀ (w : Word) (op : IOpcode), Opcode.lookup (w.extractLsb' 26 6) = some (.i op) →
    let rs := Register.ofBits (w.extractLsb' 21 5)
    let rt := Register.ofBits (w.extractLsb' 16 5)
    let imm := (w.extractLsb' 0 16).signExtend 32
    let immU := (w.extractLsb' 0 16).setWidth 32
    (op ≠ .regimm → decodeShape w = .ok (.i op rs rt imm immU none)) ∧
    (op = .regimm → ∀ c, RegimmCode.lookup (w.extractLsb' 16 5) = some c →
      decodeShape w = .ok (.i op rs rt imm immU (some c))) ∧
    (op = .regimm → RegimmCode.lookup (w.extractLsb' 16 5) = none →
      decodeShape w = .error (.regimm, (w.extractLsb' 16 5).toNat))

/-- For a word that decodes to the I shape, imm is the two's-complement value of bits 15:0 and imm_us their unsigned
value, each in its range, and the integer imm is also the field sign-extended to 64 bits. (R57, stated) -/
def Obligations.ImmediateForms : Prop :=
  ∀ (w : Word) (i : Instr) (op : IOpcode) (rs rt : Register) (imm immU : BitVec 32) (c : Option RegimmCode),
    decode w = .ok i → i.shape = .i op rs rt imm immU c →
    imm.toInt = (w.toNat % 2 ^ 16 : Nat) - (if w.getLsbD 15 then (2 ^ 16 : Int) else 0) ∧
    -32768 ≤ imm.toInt ∧ imm.toInt ≤ 32767 ∧
    immU.toNat = w.toNat % 2 ^ 16 ∧ immU.toNat ≤ 65535 ∧
    imm.toInt = ((w.extractLsb' 0 16).signExtend 64).toInt

/-- decode raises UnknownEncoding(field, code) exactly in five cases, checked in order: opcode; for R-format func; for
REGIMM the REGIMM code; for COP1 the format and then, for an arithmetic format only, the function; code is the field's
unsigned value. (R70, stated) -/
def Obligations.UnknownEncodingFirstField : Prop :=
  ∀ (w : Word) (f : FieldName) (c : Nat),
    decode w = .unknownEncoding f c ↔
      (f = .opcode ∧ c = (w.extractLsb' 26 6).toNat ∧ Opcode.lookup (w.extractLsb' 26 6) = none) ∨
      (f = .func ∧ c = (w.extractLsb' 0 6).toNat ∧ Opcode.lookup (w.extractLsb' 26 6) = some .special ∧
        RFunc.lookup (w.extractLsb' 0 6) = none) ∨
      (f = .regimm ∧ c = (w.extractLsb' 16 5).toNat ∧ Opcode.lookup (w.extractLsb' 26 6) = some (.i .regimm) ∧
        RegimmCode.lookup (w.extractLsb' 16 5) = none) ∨
      (f = .fmt ∧ c = (w.extractLsb' 21 5).toNat ∧ Opcode.lookup (w.extractLsb' 26 6) = some .cop1 ∧
        Cop1Fmt.lookup (w.extractLsb' 21 5) = none) ∨
      (f = .cop1Func ∧ c = (w.extractLsb' 0 6).toNat ∧ Opcode.lookup (w.extractLsb' 26 6) = some .cop1 ∧
        (∃ a, Cop1Fmt.lookup (w.extractLsb' 21 5) = some (.arith a)) ∧ Cop1Func.lookup (w.extractLsb' 0 6) = none)

/-- A call of decode whose index is negative or not below the length is refused with IndexOutOfRange, every other call
gives the result of decoding the word at that index, and no element of decode_all is refused. (R72, R262, stated) -/
def Obligations.DecodeIndexPrecondition : Prop :=
  (∀ (words : List Word) (index : Int),
    decodeAt words index = .error .indexOutOfRange ↔ index < 0 ∨ (words.length : Int) ≤ index) ∧
  (∀ (words : List Word) (n : Nat) (h : n < words.length), decodeAt words n = .ok (decode words[n])) ∧
  ∀ (words : List Word) (n : Nat) (r : DecodeResult), (decodeAll words)[n]? = some r → decodeAt words n = .ok r

/-- A call of decode_all(words) makes a sequence over those words at position 0, distinct from every sequence already
made, each of which keeps its words and position. For every sequence of every state: below its end, taking an element
gives decode(words, position) and moves its position on by one; at its end it is exhausted and nothing changes; no
other sequence changes, nor anything else of the machine. No call, no request and no step moves a position back. What
a request gives and does to the sequences does not depend on the Register File, and no instruction changes a sequence.
(That a sequence is named by its place in the state's list is the model's way of naming it, log entry 11.) (R39,
stated) -/
def Obligations.DecodeAllPosition : Prop :=
  ∀ s : State,
    (∀ words : List Word,
      let n := (s.decodeAllNew words).1
      let t := (s.decodeAllNew words).2
      s.seqs[n]? = none ∧ t.seqs[n]? = some { words := words, pos := 0 } ∧
        (∀ (m : Nat) (q : DecodeSeq), s.seqs[m]? = some q → t.seqs[m]? = some q) ∧ t = { s with seqs := t.seqs }) ∧
    (∀ (n : Nat) (q : DecodeSeq), s.seqs[n]? = some q →
      let r := (s.decodeAllNext n).1
      let t := (s.decodeAllNext n).2
      (∀ h : q.pos < q.words.length, r = some (decode q.words[q.pos]) ∧
        t.seqs[n]? = some { words := q.words, pos := q.pos + 1 }) ∧
      (q.pos = q.words.length → r = none ∧ t = s) ∧
      (∀ m, m ≠ n → t.seqs[m]? = s.seqs[m]?) ∧ t = { s with seqs := t.seqs }) ∧
    (∀ t : State, ((∃ words, t = (s.decodeAllNew words).2) ∨ (∃ n, t = (s.decodeAllNext n).2) ∨ step s = .next t) →
      ∀ (m : Nat) (q : DecodeSeq), s.seqs[m]? = some q →
        ∃ p, q.pos ≤ p ∧ t.seqs[m]? = some { words := q.words, pos := p }) ∧
    (∀ (rf' : RegFile) (n : Nat), ({ s with rf := rf' }.decodeAllNext n).1 = (s.decodeAllNext n).1 ∧
      ({ s with rf := rf' }.decodeAllNext n).2.seqs = (s.decodeAllNext n).2.seqs) ∧
    ∀ (i : Instr) (t : State), exec i s = .next t → t.seqs = s.seqs

/-- Whatever sequences are already held, asking the sequence a call of decode_all(words) makes once per word gives the
results of decode at 0, 1, ..., length - 1 in that order, undecodable words at their position among them, and the next
request finds it exhausted. (R71, stated) -/
def Obligations.DecodeAllSequence : Prop :=
  ∀ (s : State) (words : List Word),
    let n := (s.decodeAllNew words).1
    let given := (s.decodeAllNew words).2.takes (List.replicate words.length n)
    given.1 = (decodeAll words).map (fun r => (n, some r)) ∧
    (given.2.decodeAllNext n).1 = none ∧
    (decodeAll words).length = words.length ∧
    ∀ (k : Nat) (h : k < words.length), (decodeAll words)[k]? = some (decode words[k])

/-- In every Register File, reachable or not, all six views of r0 read 0, and each of the six write accessors on r0 leaves
the Register File unchanged. (R26, R28, R29, derived) -/
def Obligations.RegisterZero : Prop :=
  ∀ rf : RegFile,
    rf.readSigned64 Register.zero = 0 ∧ rf.readUnsigned64 Register.zero = 0 ∧
    rf.readSigned32Lo Register.zero = 0 ∧ rf.readUnsigned32Lo Register.zero = 0 ∧
    rf.readSigned32Hi Register.zero = 0 ∧ rf.readUnsigned32Hi Register.zero = 0 ∧
    (∀ v, rf.writeSigned64 Register.zero v = (rf, 0)) ∧ (∀ v, rf.writeUnsigned64 Register.zero v = (rf, 0)) ∧
    (∀ v, rf.writeSigned32Lo Register.zero v = (rf, 0)) ∧ (∀ v, rf.writeUnsigned32Lo Register.zero v = (rf, 0)) ∧
    (∀ v, rf.writeSigned32Hi Register.zero v = (rf, 0)) ∧ (∀ v, rf.writeUnsigned32Hi Register.zero v = (rf, 0))

/-- With x the 64-bit pattern of the slot, the unsigned views are x, x mod 2^32 and x / 2^32, and each signed view is the
unsigned one less 2^64 or 2^32 when its own top bit is set; the views hold for all 34 slots. (R25, stated) -/
def Obligations.SixViews : Prop :=
  ∀ (rf : RegFile) (r : Register),
    let x := rf.read r
    rf.readUnsigned64 r = x.toNat ∧
    rf.readSigned64 r = (x.toNat : Int) - (if x.getLsbD 63 then 2 ^ 64 else 0) ∧
    rf.readUnsigned32Lo r = x.toNat % 2 ^ 32 ∧
    rf.readSigned32Lo r = ((x.toNat % 2 ^ 32 : Nat) : Int) - (if x.getLsbD 31 then 2 ^ 32 else 0) ∧
    rf.readUnsigned32Hi r = x.toNat / 2 ^ 32 ∧
    rf.readSigned32Hi r = ((x.toNat / 2 ^ 32 : Nat) : Int) - (if x.getLsbD 63 then 2 ^ 32 else 0)

/-- After Write64(reg, p) a register other than r0 that is reg reads p, every other register reads as before, and with reg
= r0 the Register File is unchanged. (R30, stated) -/
def Obligations.Write64Effect : Prop :=
  ∀ (rf : RegFile) (reg : Register) (p : DWord),
    (reg = Register.zero → rf.write64 reg p = rf) ∧
    (reg ≠ Register.zero → (rf.write64 reg p).read reg = p ∧ (rf.write64 reg p).slots[reg] = p) ∧
    ∀ q, q ≠ reg → (rf.write64 reg p).read q = rf.read q ∧ (rf.write64 reg p).slots[q] = rf.slots[q]

/-- After Write32(reg, half, p) with reg other than r0 the named half is p and the other half keeps its bits; every other
register reads as before; with reg = r0 the Register File is unchanged; and after Write64(reg, p) the hi half followed
by the lo half is p. (R31, R32, stated) -/
def Obligations.Write32Effect : Prop :=
  ∀ (rf : RegFile) (reg : Register) (p : Word),
    (∀ half, reg = Register.zero → rf.write32 reg half p = rf) ∧
    (reg ≠ Register.zero →
      (rf.write32 reg .lo p).readLo reg = p ∧ (rf.write32 reg .lo p).readHi reg = rf.readHi reg ∧
      (rf.write32 reg .hi p).readHi reg = p ∧ (rf.write32 reg .hi p).readLo reg = rf.readLo reg) ∧
    (∀ p : DWord, reg ≠ Register.zero →
      ((rf.write64 reg p).readHi reg ++ (rf.write64 reg p).readLo reg : BitVec 64) = p) ∧
    ∀ q, q ≠ reg → ∀ rf', (∃ p, rf' = rf.write64 reg p) ∨ (∃ half, rf' = rf.write32 reg half p) →
      rf'.read q = rf.read q ∧ rf'.readLo q = rf.readLo q ∧ rf'.readHi q = rf.readHi q

/-- The six write accessors leave the Register File of Write64 or Write32 on their view, and return the value written, or
0 when the register is r0. (R29, stated) -/
def Obligations.AccessorWrites : Prop :=
  ∀ (rf : RegFile) (r : Register),
    (∀ v : DWord, rf.writeSigned64 r v = (rf.write64 r v, if r = Register.zero then 0 else v.toInt)) ∧
    (∀ v : DWord, rf.writeUnsigned64 r v = (rf.write64 r v, if r = Register.zero then 0 else v.toNat)) ∧
    (∀ v : Word, rf.writeSigned32Lo r v = (rf.write32 r .lo v, if r = Register.zero then 0 else v.toInt)) ∧
    (∀ v : Word, rf.writeUnsigned32Lo r v = (rf.write32 r .lo v, if r = Register.zero then 0 else v.toNat)) ∧
    (∀ v : Word, rf.writeSigned32Hi r v = (rf.write32 r .hi v, if r = Register.zero then 0 else v.toInt)) ∧
    (∀ v : Word, rf.writeUnsigned32Hi r v = (rf.write32 r .hi v, if r = Register.zero then 0 else v.toNat))

/-- For either setting of P_W32_HI, after WriteResult32(r, p), r other than r0, the lo half is p and the hi half keeps its
bits (preserve) or takes 32 copies of bit 31 of p (sext); with r = r0 nothing is written; every other register reads
as before. (R85, stated) -/
def Obligations.WriteResult32Effect : Prop :=
  ∀ (m : W32Hi) (rf : RegFile) (r : Register) (p : Word),
    Holds32 m rf (rf.writeResult32 m r p) r p ∧ ∀ q, q ≠ r → (rf.writeResult32 m r p).read q = rf.read q

/-- A word with opcode 000000 and func 0x20 decodes to ADD with its fields. If the exact sum of the signed lo half of rs
and of rt lies in [-2^31, 2^31 - 1], ADD completes: rd holds the sum (hi half by P_W32_HI), nothing for rd = r0, every
other register and all else unchanged, the index one further. Otherwise the run halts with OverflowFault and nothing
else changes. (R91, stated) -/
def Obligations.AddResult : Prop :=
  (∀ w : Word, w.extractLsb' 26 6 = 0 → w.extractLsb' 0 6 = 0x20#6 →
    decode w = .ok (.add (.ofBits (w.extractLsb' 21 5)) (.ofBits (w.extractLsb' 16 5))
      (.ofBits (w.extractLsb' 11 5)) (w.extractLsb' 6 5))) ∧
  ∀ (rs rt rd : Register) (shamt : BitVec 5) (s : State),
    let a := (s.rf.readLo rs).toInt
    let b := (s.rf.readLo rt).toInt
    (InRange32 (a + b) → ∃ t, exec (.add rs rt rd shamt) s = .next t ∧
      Holds32 Config.w32Hi s.rf t.rf rd (BitVec.ofInt 32 (a + b)) ∧ Retires [rd] s t) ∧
    (¬ InRange32 (a + b) → exec (.add rs rt rd shamt) s = .next (Overflowed s))

/-- A word with opcode 0x08 decodes to ADDI with its fields. If the exact sum of the signed lo half of rs and the
sign-extended immediate lies in [-2^31, 2^31 - 1], ADDI completes: rt holds the sum (hi half by P_W32_HI), nothing for
rt = r0, every other register and all else unchanged, the index one further. Otherwise the run halts with
OverflowFault and nothing else changes. (R92, stated) -/
def Obligations.AddiResult : Prop :=
  (∀ w : Word, w.extractLsb' 26 6 = 0x08#6 →
    decode w = .ok (.addi (.ofBits (w.extractLsb' 21 5)) (.ofBits (w.extractLsb' 16 5)) (w.extractLsb' 0 16))) ∧
  ∀ (rs rt : Register) (imm : BitVec 16) (s : State),
    let a := (s.rf.readLo rs).toInt
    let b := imm.toInt
    (InRange32 (a + b) → ∃ t, exec (.addi rs rt imm) s = .next t ∧
      Holds32 Config.w32Hi s.rf t.rf rt (BitVec.ofInt 32 (a + b)) ∧ Retires [rt] s t) ∧
    (¬ InRange32 (a + b) → exec (.addi rs rt imm) s = .next (Overflowed s))

/-- A word with opcode 000000 and func 0x21 decodes to ADDU with its fields. ADDU always completes: rd holds the sum
modulo 2^32 of the unsigned lo half of rs and of rt (hi half by P_W32_HI), nothing for rd = r0; every other register
and all else is unchanged, the index one further. (R93, stated) -/
def Obligations.AdduResult : Prop :=
  (∀ w : Word, w.extractLsb' 26 6 = 0 → w.extractLsb' 0 6 = 0x21#6 →
    decode w = .ok (.addu (.ofBits (w.extractLsb' 21 5)) (.ofBits (w.extractLsb' 16 5))
      (.ofBits (w.extractLsb' 11 5)) (w.extractLsb' 6 5))) ∧
  ∀ (rs rt rd : Register) (shamt : BitVec 5) (s : State),
    ∃ t, exec (.addu rs rt rd shamt) s = .next t ∧
      Holds32 Config.w32Hi s.rf t.rf rd (BitVec.ofNat 32 (((s.rf.readLo rs).toNat + (s.rf.readLo rt).toNat) % 2 ^ 32)) ∧
      Retires [rd] s t

/-- A word with opcode 0x09 decodes to ADDIU with its fields. ADDIU always completes: rt holds the sum modulo 2^32 of the
unsigned lo half of rs and the zero-extended immediate (hi half by P_W32_HI), nothing for rt = r0; every other
register and all else is unchanged, the index one further. (R94, stated) -/
def Obligations.AddiuResult : Prop :=
  (∀ w : Word, w.extractLsb' 26 6 = 0x09#6 →
    decode w = .ok (.addiu (.ofBits (w.extractLsb' 21 5)) (.ofBits (w.extractLsb' 16 5)) (w.extractLsb' 0 16))) ∧
  ∀ (rs rt : Register) (imm : BitVec 16) (s : State),
    ∃ t, exec (.addiu rs rt imm) s = .next t ∧
      Holds32 Config.w32Hi s.rf t.rf rt (BitVec.ofNat 32 (((s.rf.readLo rs).toNat + imm.toNat) % 2 ^ 32)) ∧
      Retires [rt] s t

/-- A word with opcode 000000 and func 0x2C decodes to DADD with its fields. If the exact sum of the signed 64-bit value
of rs and of rt lies in [-2^63, 2^63 - 1], DADD completes: rd holds the sum, nothing for rd = r0, every other register
and all else unchanged, the index one further. Otherwise the run halts with OverflowFault and nothing else changes.
(R95, stated) -/
def Obligations.DaddResult : Prop :=
  (∀ w : Word, w.extractLsb' 26 6 = 0 → w.extractLsb' 0 6 = 0x2C#6 →
    decode w = .ok (.dadd (.ofBits (w.extractLsb' 21 5)) (.ofBits (w.extractLsb' 16 5))
      (.ofBits (w.extractLsb' 11 5)) (w.extractLsb' 6 5))) ∧
  ∀ (rs rt rd : Register) (shamt : BitVec 5) (s : State),
    let a := (s.rf.read rs).toInt
    let b := (s.rf.read rt).toInt
    (InRange64 (a + b) → ∃ t, exec (.dadd rs rt rd shamt) s = .next t ∧
      Holds64 s.rf t.rf rd (BitVec.ofInt 64 (a + b)) ∧ Retires [rd] s t) ∧
    (¬ InRange64 (a + b) → exec (.dadd rs rt rd shamt) s = .next (Overflowed s))

/-- A word with opcode 0x18 decodes to DADDI with its fields. If the exact sum of the signed 64-bit value of rs and the
sign-extended immediate lies in [-2^63, 2^63 - 1], DADDI completes: rt holds the sum, nothing for rt = r0, every other
register and all else unchanged, the index one further. Otherwise the run halts with OverflowFault and nothing else
changes. (R96, stated) -/
def Obligations.DaddiResult : Prop :=
  (∀ w : Word, w.extractLsb' 26 6 = 0x18#6 →
    decode w = .ok (.daddi (.ofBits (w.extractLsb' 21 5)) (.ofBits (w.extractLsb' 16 5)) (w.extractLsb' 0 16))) ∧
  ∀ (rs rt : Register) (imm : BitVec 16) (s : State),
    let a := (s.rf.read rs).toInt
    let b := imm.toInt
    (InRange64 (a + b) → ∃ t, exec (.daddi rs rt imm) s = .next t ∧
      Holds64 s.rf t.rf rt (BitVec.ofInt 64 (a + b)) ∧ Retires [rt] s t) ∧
    (¬ InRange64 (a + b) → exec (.daddi rs rt imm) s = .next (Overflowed s))

/-- A word with opcode 000000 and func 0x2D decodes to DADDU with its fields. DADDU always completes: rd holds the sum
modulo 2^64 of the unsigned 64-bit value of rs and of rt, nothing for rd = r0; every other register and all else is
unchanged, the index one further. (R97, stated) -/
def Obligations.DadduResult : Prop :=
  (∀ w : Word, w.extractLsb' 26 6 = 0 → w.extractLsb' 0 6 = 0x2D#6 →
    decode w = .ok (.daddu (.ofBits (w.extractLsb' 21 5)) (.ofBits (w.extractLsb' 16 5))
      (.ofBits (w.extractLsb' 11 5)) (w.extractLsb' 6 5))) ∧
  ∀ (rs rt rd : Register) (shamt : BitVec 5) (s : State),
    ∃ t, exec (.daddu rs rt rd shamt) s = .next t ∧
      Holds64 s.rf t.rf rd (BitVec.ofNat 64 (((s.rf.read rs).toNat + (s.rf.read rt).toNat) % 2 ^ 64)) ∧
      Retires [rd] s t

/-- A word with opcode 0x19 decodes to DADDIU with its fields. DADDIU always completes: rt holds the sum modulo 2^64 of
the unsigned 64-bit value of rs and the zero-extended immediate, nothing for rt = r0; every other register and all
else is unchanged, the index one further. (R98, stated) -/
def Obligations.DaddiuResult : Prop :=
  (∀ w : Word, w.extractLsb' 26 6 = 0x19#6 →
    decode w = .ok (.daddiu (.ofBits (w.extractLsb' 21 5)) (.ofBits (w.extractLsb' 16 5)) (w.extractLsb' 0 16))) ∧
  ∀ (rs rt : Register) (imm : BitVec 16) (s : State),
    ∃ t, exec (.daddiu rs rt imm) s = .next t ∧
      Holds64 s.rf t.rf rt (BitVec.ofNat 64 (((s.rf.read rs).toNat + imm.toNat) % 2 ^ 64)) ∧
      Retires [rt] s t

/-- A word with opcode 000000 and func 0x1A decodes to DIV with its fields. DIV always completes. With divisor b nonzero
lo holds the quotient of the signed 32-bit views of rs and rt (truncated toward zero) and hi holds a - q * b (upper
halves by P_W32_HI); with b = 0 lo holds the dividend and hi the draw P_DIV0_HI. Nothing else changes but the index.
That the draw is an unconstrained constant applied to the count of draws, and that this count moves on by one exactly
when b = 0, is the model's choice (log entry 8). (R102, R101, R277, derived) -/
def Obligations.DivResult : Prop :=
  (∀ w : Word, w.extractLsb' 26 6 = 0 → w.extractLsb' 0 6 = 0x1A#6 →
    decode w = .ok (.div (.ofBits (w.extractLsb' 21 5)) (.ofBits (w.extractLsb' 16 5))
      (.ofBits (w.extractLsb' 11 5)) (w.extractLsb' 6 5))) ∧
  ∀ (rs rt rd : Register) (shamt : BitVec 5) (s : State),
    let a := (s.rf.readLo rs).toInt
    let b := (s.rf.readLo rt).toInt
    ∃ t, exec (.div rs rt rd shamt) s = .next t ∧ Divides (b = 0) s t ∧
      (b = 0 → Holds32 Config.w32Hi s.rf t.rf Register.lo (BitVec.ofInt 32 a) ∧
        t.rf.read Register.hi = Config.div0Hi s.draws) ∧
      (b ≠ 0 → Holds32 Config.w32Hi s.rf t.rf Register.lo (BitVec.ofInt 32 (a.tdiv b)) ∧
        Holds32 Config.w32Hi s.rf t.rf Register.hi (BitVec.ofInt 32 (a - a.tdiv b * b)))

/-- A word with opcode 000000 and func 0x1B decodes to DIVU with its fields. DIVU always completes. With divisor b nonzero
lo holds the quotient of the unsigned 32-bit views of rs and rt (floor) and hi holds a - q * b (upper halves by
P_W32_HI); with b = 0 lo holds the dividend and hi the draw P_DIV0_HI. Nothing else changes but the index. That the
draw is an unconstrained constant applied to the count of draws, and that this count moves on by one exactly when b =
0, is the model's choice (log entry 8). (R103, R101, R277, derived) -/
def Obligations.DivuResult : Prop :=
  (∀ w : Word, w.extractLsb' 26 6 = 0 → w.extractLsb' 0 6 = 0x1B#6 →
    decode w = .ok (.divu (.ofBits (w.extractLsb' 21 5)) (.ofBits (w.extractLsb' 16 5))
      (.ofBits (w.extractLsb' 11 5)) (w.extractLsb' 6 5))) ∧
  ∀ (rs rt rd : Register) (shamt : BitVec 5) (s : State),
    let a := (s.rf.readLo rs).toNat
    let b := (s.rf.readLo rt).toNat
    ∃ t, exec (.divu rs rt rd shamt) s = .next t ∧ Divides (b = 0) s t ∧
      (b = 0 → Holds32 Config.w32Hi s.rf t.rf Register.lo (BitVec.ofNat 32 a) ∧
        t.rf.read Register.hi = Config.div0Hi s.draws) ∧
      (b ≠ 0 → Holds32 Config.w32Hi s.rf t.rf Register.lo (BitVec.ofNat 32 (a / b)) ∧
        Holds32 Config.w32Hi s.rf t.rf Register.hi (BitVec.ofNat 32 (a - a / b * b)))

/-- A word with opcode 000000 and func 0x1E decodes to DDIV with its fields. DDIV always completes. With divisor b nonzero
lo holds the quotient of the signed 64-bit views of rs and rt (truncated toward zero) and hi holds a - q * b; with b =
0 lo holds the dividend and hi the draw P_DIV0_HI. Nothing else changes but the index. That the draw is an
unconstrained constant applied to the count of draws, and that this count moves on by one exactly when b = 0, is the
model's choice (log entry 8). (R104, R101, R277, derived) -/
def Obligations.DdivResult : Prop :=
  (∀ w : Word, w.extractLsb' 26 6 = 0 → w.extractLsb' 0 6 = 0x1E#6 →
    decode w = .ok (.ddiv (.ofBits (w.extractLsb' 21 5)) (.ofBits (w.extractLsb' 16 5))
      (.ofBits (w.extractLsb' 11 5)) (w.extractLsb' 6 5))) ∧
  ∀ (rs rt rd : Register) (shamt : BitVec 5) (s : State),
    let a := (s.rf.read rs).toInt
    let b := (s.rf.read rt).toInt
    ∃ t, exec (.ddiv rs rt rd shamt) s = .next t ∧ Divides (b = 0) s t ∧
      (b = 0 → Holds64 s.rf t.rf Register.lo (BitVec.ofInt 64 a) ∧
        t.rf.read Register.hi = Config.div0Hi s.draws) ∧
      (b ≠ 0 → Holds64 s.rf t.rf Register.lo (BitVec.ofInt 64 (a.tdiv b)) ∧
        Holds64 s.rf t.rf Register.hi (BitVec.ofInt 64 (a - a.tdiv b * b)))

/-- A word with opcode 000000 and func 0x1F decodes to DDIVU with its fields. DDIVU always completes. With divisor b
nonzero lo holds the quotient of the unsigned 64-bit views of rs and rt (floor) and hi holds a - q * b; with b = 0 lo
holds the dividend and hi the draw P_DIV0_HI. Nothing else changes but the index. That the draw is an unconstrained
constant applied to the count of draws, and that this count moves on by one exactly when b = 0, is the model's choice
(log entry 8). (R105, R101, R277, derived) -/
def Obligations.DdivuResult : Prop :=
  (∀ w : Word, w.extractLsb' 26 6 = 0 → w.extractLsb' 0 6 = 0x1F#6 →
    decode w = .ok (.ddivu (.ofBits (w.extractLsb' 21 5)) (.ofBits (w.extractLsb' 16 5))
      (.ofBits (w.extractLsb' 11 5)) (w.extractLsb' 6 5))) ∧
  ∀ (rs rt rd : Register) (shamt : BitVec 5) (s : State),
    let a := (s.rf.read rs).toNat
    let b := (s.rf.read rt).toNat
    ∃ t, exec (.ddivu rs rt rd shamt) s = .next t ∧ Divides (b = 0) s t ∧
      (b = 0 → Holds64 s.rf t.rf Register.lo (BitVec.ofNat 64 a) ∧
        t.rf.read Register.hi = Config.div0Hi s.draws) ∧
      (b ≠ 0 → Holds64 s.rf t.rf Register.lo (BitVec.ofNat 64 (a / b)) ∧
        Holds64 s.rf t.rf Register.hi (BitVec.ofNat 64 (a - a / b * b)))

/-- For each of the four divisions with a nonzero divisor, lo and hi receive a quotient q and a remainder r with a = q * b
+ r; signed, |r| < |b| and r is 0 or has the sign of the dividend (so q is rounded toward zero); unsigned, 0 <= r < b.
(R99, stated) -/
def Obligations.DivisionLaw : Prop :=
  ∀ (rs rt rd : Register) (shamt : BitVec 5) (s : State),
    (s.rf.readLo rt ≠ 0 → ∃ (t : State) (q r : Int), exec (.div rs rt rd shamt) s = .next t ∧
      (s.rf.readLo rs).toInt = q * (s.rf.readLo rt).toInt + r ∧ |r| < |(s.rf.readLo rt).toInt| ∧
        (r = 0 ∨ (0 < r ↔ 0 < (s.rf.readLo rs).toInt)) ∧
      t.rf.readLo Register.lo = BitVec.ofInt 32 q ∧ t.rf.readLo Register.hi = BitVec.ofInt 32 r) ∧
    (s.rf.readLo rt ≠ 0 → ∃ (t : State) (q r : Nat), exec (.divu rs rt rd shamt) s = .next t ∧
      (s.rf.readLo rs).toNat = q * (s.rf.readLo rt).toNat + r ∧ r < (s.rf.readLo rt).toNat ∧
      t.rf.readLo Register.lo = BitVec.ofNat 32 q ∧ t.rf.readLo Register.hi = BitVec.ofNat 32 r) ∧
    (s.rf.read rt ≠ 0 → ∃ (t : State) (q r : Int), exec (.ddiv rs rt rd shamt) s = .next t ∧
      (s.rf.read rs).toInt = q * (s.rf.read rt).toInt + r ∧ |r| < |(s.rf.read rt).toInt| ∧
        (r = 0 ∨ (0 < r ↔ 0 < (s.rf.read rs).toInt)) ∧
      t.rf.read Register.lo = BitVec.ofInt 64 q ∧ t.rf.read Register.hi = BitVec.ofInt 64 r) ∧
    (s.rf.read rt ≠ 0 → ∃ (t : State) (q r : Nat), exec (.ddivu rs rt rd shamt) s = .next t ∧
      (s.rf.read rs).toNat = q * (s.rf.read rt).toNat + r ∧ r < (s.rf.read rt).toNat ∧
      t.rf.read Register.lo = BitVec.ofNat 64 q ∧ t.rf.read Register.hi = BitVec.ofNat 64 r)

/-- DIV of 0x80000000 by 0xFFFFFFFF leaves the lo halves of lo and hi at 0x80000000 and 0, and DDIV of 0x8000000000000000
by -1 leaves lo = 0x8000000000000000 and hi = 0; both complete without a fault. (R100, stated) -/
def Obligations.DivisionQuotientWraps : Prop :=
  ∀ (rs rt rd : Register) (shamt : BitVec 5) (s : State),
    (s.rf.readLo rs = 0x80000000#32 → s.rf.readLo rt = 0xFFFFFFFF#32 →
      ∃ t, exec (.div rs rt rd shamt) s = .next t ∧ t.rf.readLo Register.lo = 0x80000000#32 ∧
        t.rf.readLo Register.hi = 0 ∧ t.k = s.k + 1 ∧ t.status = s.status) ∧
    (s.rf.read rs = 0x8000000000000000#64 → s.rf.read rt = 0xFFFFFFFFFFFFFFFF#64 →
      ∃ t, exec (.ddiv rs rt rd shamt) s = .next t ∧ t.rf.read Register.lo = 0x8000000000000000#64 ∧
        t.rf.read Register.hi = 0 ∧ t.k = s.k + 1 ∧ t.status = s.status)

/-- With the N-bit view of rt equal to 0, each of the four divisions completes without a fault and lo holds the N-bit
pattern of rs, written as any N-bit result is written. (R101, stated) -/
def Obligations.DivisionByZero : Prop :=
  ∀ (rs rt rd : Register) (shamt : BitVec 5) (s : State),
    (s.rf.readLo rt = 0 →
      (∃ t, exec (.div rs rt rd shamt) s = .next t ∧ t.status = s.status ∧ t.k = s.k + 1 ∧
        Holds32 Config.w32Hi s.rf t.rf Register.lo (s.rf.readLo rs)) ∧
      (∃ t, exec (.divu rs rt rd shamt) s = .next t ∧ t.status = s.status ∧ t.k = s.k + 1 ∧
        Holds32 Config.w32Hi s.rf t.rf Register.lo (s.rf.readLo rs))) ∧
    (s.rf.read rt = 0 →
      (∃ t, exec (.ddiv rs rt rd shamt) s = .next t ∧ t.status = s.status ∧ t.k = s.k + 1 ∧
        Holds64 s.rf t.rf Register.lo (s.rf.read rs)) ∧
      (∃ t, exec (.ddivu rs rt rd shamt) s = .next t ∧ t.status = s.status ∧ t.k = s.k + 1 ∧
        Holds64 s.rf t.rf Register.lo (s.rf.read rs)))

/-- Two Register Files whose sources agree in their lo halves give ADD, ADDI, ADDU, ADDIU, DIV and DIVU the same outcome
and, on completion, the same lo half in each destination. For the hi of a DIV or DIVU with divisor 0, which both sides
then have, this is said under the same draw of P_DIV0_HI: both start from the same count of draws, by which the model
names the draw (the model's choice, log entry 8). (R84, derived) -/
def Obligations.UpperHalvesIgnored : Prop :=
  ∀ (rs rt rd : Register) (shamt : BitVec 5) (imm : BitVec 16) (s : State) (rf' : RegFile),
    rf'.readLo rs = s.rf.readLo rs →
    (∀ i ∈ [Instr.addi rs rt imm, .addiu rs rt imm],
      ∃ t t', exec i s = .next t ∧ exec i { s with rf := rf' } = .next t' ∧ t'.k = t.k ∧ t'.status = t.status ∧
        (t.k = s.k + 1 → t'.rf.readLo rt = t.rf.readLo rt)) ∧
    (rf'.readLo rt = s.rf.readLo rt →
      (∀ i ∈ [Instr.add rs rt rd shamt, .addu rs rt rd shamt],
        ∃ t t', exec i s = .next t ∧ exec i { s with rf := rf' } = .next t' ∧ t'.k = t.k ∧ t'.status = t.status ∧
          (t.k = s.k + 1 → t'.rf.readLo rd = t.rf.readLo rd)) ∧
      (∀ i ∈ [Instr.div rs rt rd shamt, .divu rs rt rd shamt],
        ∃ t t', exec i s = .next t ∧ exec i { s with rf := rf' } = .next t' ∧ t'.k = t.k ∧ t'.status = t.status ∧
          t'.rf.readLo Register.lo = t.rf.readLo Register.lo ∧
          t'.rf.readLo Register.hi = t.rf.readLo Register.hi))

/-- For each of the eight additions with destination r0: where it can overflow and does, OverflowFault and no change;
otherwise success with the Register File unchanged and only the index moved on. (R89, stated) -/
def Obligations.DestinationZero : Prop :=
  ∀ (rs rt : Register) (shamt : BitVec 5) (imm : BitVec 16) (s : State),
    (InRange32 ((s.rf.readLo rs).toInt + (s.rf.readLo rt).toInt) → exec (.add rs rt Register.zero shamt) s = .next { s with k := s.k + 1 }) ∧
    (¬ InRange32 ((s.rf.readLo rs).toInt + (s.rf.readLo rt).toInt) → exec (.add rs rt Register.zero shamt) s = .next (Overflowed s)) ∧
    (InRange32 ((s.rf.readLo rs).toInt + imm.toInt) → exec (.addi rs Register.zero imm) s = .next { s with k := s.k + 1 }) ∧
    (¬ InRange32 ((s.rf.readLo rs).toInt + imm.toInt) → exec (.addi rs Register.zero imm) s = .next (Overflowed s)) ∧
    exec (.addu rs rt Register.zero shamt) s = .next { s with k := s.k + 1 } ∧
    exec (.addiu rs Register.zero imm) s = .next { s with k := s.k + 1 } ∧
    (InRange64 ((s.rf.read rs).toInt + (s.rf.read rt).toInt) → exec (.dadd rs rt Register.zero shamt) s = .next { s with k := s.k + 1 }) ∧
    (¬ InRange64 ((s.rf.read rs).toInt + (s.rf.read rt).toInt) → exec (.dadd rs rt Register.zero shamt) s = .next (Overflowed s)) ∧
    (InRange64 ((s.rf.read rs).toInt + imm.toInt) → exec (.daddi rs Register.zero imm) s = .next { s with k := s.k + 1 }) ∧
    (¬ InRange64 ((s.rf.read rs).toInt + imm.toInt) → exec (.daddi rs Register.zero imm) s = .next (Overflowed s)) ∧
    exec (.daddu rs rt Register.zero shamt) s = .next { s with k := s.k + 1 } ∧
    exec (.daddiu rs Register.zero imm) s = .next { s with k := s.k + 1 }

/-- exec always answers a next state: the index one further with the status kept, or the recorded OverflowFault, or the
recorded Unimplemented of that instruction; in the last two every register, lo and hi included, and all else is as
before; a division always completes. (R82, stated) -/
def Obligations.AtomicCommit : Prop :=
  ∀ (i : Instr) (s : State), ∃ t, exec i s = .next t ∧
    ((t.k = s.k + 1 ∧ t.status = s.status) ∨ t = Overflowed s ∨ t = Refused i s) ∧
    (i.shape.isDivision = true → t.k = s.k + 1 ∧ t.status = s.status) ∧
    (t.k ≠ s.k + 1 → t.rf = s.rf)

/-- From a running state, an instruction ends in OverflowFault exactly if it is ADD or ADDI and the exact sum is outside
[-2^31, 2^31 - 1], or DADD or DADDI and it is outside [-2^63, 2^63 - 1]; then every register and all else is
unchanged. (R260, stated) -/
def Obligations.OverflowFaultRaisers : Prop :=
  ∀ (i : Instr) (s t : State), s.status = .running → exec i s = .next t →
    (t.status = .halted (.fault .overflowFault) ↔
      (∃ rs rt rd sh, i = .add rs rt rd sh ∧ ¬ InRange32 ((s.rf.readLo rs).toInt + (s.rf.readLo rt).toInt)) ∨
      (∃ rs rt imm, i = .addi rs rt imm ∧ ¬ InRange32 ((s.rf.readLo rs).toInt + imm.toInt)) ∨
      (∃ rs rt rd sh, i = .dadd rs rt rd sh ∧ ¬ InRange64 ((s.rf.read rs).toInt + (s.rf.read rt).toInt)) ∨
      (∃ rs rt imm, i = .daddi rs rt imm ∧ ¬ InRange64 ((s.rf.read rs).toInt + imm.toInt))) ∧
    (t.status = .halted (.fault .overflowFault) → t = Overflowed s)

/-- For every instruction, in the next state every register but its destinations (rd or rt of an addition, lo and hi of a
division, none of a decode-only instruction) reads as before, r0 reads 0, the words and the decode_all sequences stay,
and the model's count of draws (log entry 8) moves on only in a division; there is no memory, flag or control register
to change. (R90, R83, R37, R38, R42, derived) -/
def Obligations.OnlyNamedRegistersChange : Prop :=
  ∀ (i : Instr) (s t : State), exec i s = .next t →
    Frame i.shape.dests s t ∧ t.rf.read Register.zero = 0 ∧ t.rf.slots[0] = s.rf.slots[0] ∧
    (i.shape.isDivision = false → t.draws = s.draws)

/-- If ADD from a running state completes, ADDU with the same fields completes in the very same state; so do the 64-bit
DADD and DADDU. (R93, R91, R95, R97, derived) -/
def Obligations.AdduAgreesWithAdd : Prop :=
  ∀ (rs rt rd : Register) (shamt : BitVec 5) (s t : State), s.status = .running → t.status = .running →
    (exec (.add rs rt rd shamt) s = .next t → exec (.addu rs rt rd shamt) s = .next t) ∧
    (exec (.dadd rs rt rd shamt) s = .next t → exec (.daddu rs rt rd shamt) s = .next t)

/-- For every instruction a word decodes to: its register fields are r0 to r31; unless it is a division, lo and hi read as
before; and changing lo and hi beforehand changes neither the outcome nor any other register, nor the results a
division leaves in the lo halves of lo and hi. For the hi of a division by zero this is said under the same draw of
P_DIV0_HI: both sides start from the same count of draws, by which the model names the draw (the model's choice, log
entry 8). (R23, R56, R101, derived) -/
def Obligations.LoHiOnlyByDivision : Prop :=
  ∀ (w : Word) (i : Instr), decode w = .ok i →
    i.wellFormed = true ∧
    (∀ s t : State, i.shape.isDivision = false → exec i s = .next t →
      t.rf.read Register.lo = s.rf.read Register.lo ∧ t.rf.read Register.hi = s.rf.read Register.hi) ∧
    ∀ (s : State) (rf' : RegFile), (∀ r, r ≠ Register.lo → r ≠ Register.hi → rf'.read r = s.rf.read r) →
      ∃ t t', exec i s = .next t ∧ exec i { s with rf := rf' } = .next t' ∧
        t'.k = t.k ∧ t'.status = t.status ∧ t'.draws = t.draws ∧
        (∀ r, r ≠ Register.lo → r ≠ Register.hi → t'.rf.read r = t.rf.read r) ∧
        (i.shape.isDivision = true → t'.rf.readLo Register.lo = t.rf.readLo Register.lo ∧
          t'.rf.readLo Register.hi = t.rf.readLo Register.hi)

/-- For every instruction that is not one of the twelve of the dispatch table, exec answers the state with the outcome
Unimplemented of that instruction recorded and nothing else changed; for the twelve it never does. (R83, stated) -/
def Obligations.UnexecutedRefused : Prop :=
  ∀ (i : Instr) (s : State),
    (i.shape.isExecuted = false → exec i s = .next (Refused i s)) ∧
    (i.shape.isExecuted = true → s.status = .running → exec i s ≠ .next (Refused i s))

/-- A SPECIAL word with any of the 44 decode-only functions (SLL, SRL, SRA, SLLV, SRLV, SRAV, JR, JALR, SYSCALL, BREAK,
SYNC, MFHI, MTHI, MFLO, MTLO, DSLLV, DSRLV, DSRAV, MULT, MULTU, DMULT, DMULTU, SUB, SUBU, AND, OR, XOR, NOR, SLT,
SLTU, DSUB, DSUBU, TGE, TGEU, TLT, TLTU, TEQ, TNE, DSLL, DSRL, DSRA, DSLL32, DSRL32, DSRA32) decodes, whatever its
other fields hold, and executing it records Unimplemented of the decoded instruction and changes nothing else. (R106,
stated) -/
def Obligations.RFormatDecodeOnly : Prop :=
  ∀ (f : RFunc),
    f ∈ [RFunc.sll, .srl, .sra, .sllv, .srlv, .srav, .jr, .jalr, .syscall, .break_, .sync, .mfhi,
      .mthi, .mflo, .mtlo, .dsllv, .dsrlv, .dsrav, .mult, .multu, .dmult, .dmultu, .sub, .subu,
      .and, .or, .xor, .nor, .slt, .sltu, .dsub, .dsubu, .tge, .tgeu, .tlt, .tltu,
      .teq, .tne, .dsll, .dsrl, .dsra, .dsll32, .dsrl32, .dsra32] →
    (∀ w : Word, w.extractLsb' 26 6 = 0 → w.extractLsb' 0 6 = f.code →
      ∃ i, decode w = .ok i ∧ i.shape = .r (.ofBits (w.extractLsb' 21 5)) (.ofBits (w.extractLsb' 16 5))
        (.ofBits (w.extractLsb' 11 5)) (w.extractLsb' 6 5) f) ∧
    ∀ (i : Instr) (rs rt rd : Register) (shamt : BitVec 5) (s : State), i.shape = .r rs rt rd shamt f →
      exec i s = .next (Refused i s)

/-- A COP1 word whose format and, for an arithmetic format, function are in their sets decodes with that format, with ft,
fs, fd from bits 20:16, 15:11, 10:6, with func the function's name for S, D, W, L and the raw bits 5:0 otherwise, and
with nd = bit 17 and tf = bit 16 for BC and none otherwise. Executing any FR-shape instruction (MFC1, DMFC1, CFC1,
MTC1, DMTC1, CTC1, BC1F, BC1T, BC1FL, BC1TL and the 36 arithmetic-format instructions ADD.fmt to C.NGT.fmt) records
Unimplemented and changes nothing else. (R151, R83, derived) -/
def Obligations.Cop1DecodeOnly : Prop :=
  (∀ (w : Word) (m : Cop1Fmt), w.extractLsb' 26 6 = 17 → Cop1Fmt.lookup (w.extractLsb' 21 5) = some m →
    let ft := FPRegister.ofBits (w.extractLsb' 16 5)
    let fs := FPRegister.ofBits (w.extractLsb' 11 5)
    let fd := FPRegister.ofBits (w.extractLsb' 6 5)
    let func := w.extractLsb' 0 6
    (∀ a f, m = .arith a → Cop1Func.lookup func = some f →
      ∃ i, decode w = .ok i ∧ i.shape = .fr m ft fs fd (.named f) none none) ∧
    ((∀ a, m ≠ .arith a) → m ≠ .bc →
      ∃ i, decode w = .ok i ∧ i.shape = .fr m ft fs fd (.raw func) none none) ∧
    (m = .bc →
      ∃ i, decode w = .ok i ∧ i.shape = .fr m ft fs fd (.raw func) (some (w.getLsbD 17)) (some (w.getLsbD 16)))) ∧
  ∀ (i : Instr) (m : Cop1Fmt) (ft fs fd : FPRegister) (f : FrFunc) (nd tf : Option Bool) (s : State),
    i.shape = .fr m ft fs fd f nd tf → exec i s = .next (Refused i s)

/-- Executing J or JAL, whatever the field, records Unimplemented and changes nothing else: no register is written and the
index stays. (R198, R199, R200, derived) -/
def Obligations.JumpsDecodeOnly : Prop :=
  ∀ (addr : BitVec 26) (s : State),
    exec (.j addr) s = .next (Refused (.j addr) s) ∧ exec (.jal addr) s = .next (Refused (.jal addr) s)

/-- A word with any decode-only I-class opcode other than REGIMM (BEQ, BNE, BLEZ, BGTZ, SLTI, SLTIU, ANDI, ORI, XORI, LUI,
BEQL, BNEL, BLEZL, BGTZL, LDL, LDR, LB, LH, LWL, LW, LBU, LHU, LWR, LWU, SB, SH, SWL, SW, SDL, SDR, SWR, LL, LWC1,
LLD, LDC1, LD, SC, SWC1, SCD, SDC1, SD) decodes with its fields, and executing it records Unimplemented and changes
nothing else: no branch is taken, no memory accessed, no register written. (R201, R83, derived) -/
def Obligations.IFormatDecodeOnly : Prop :=
  ∀ (op : IOpcode), op ∉ [IOpcode.regimm, .addi, .addiu, .daddi, .daddiu] →
    (∀ w : Word, w.extractLsb' 26 6 = op.code →
      ∃ i, decode w = .ok i ∧ i.shape = .i op (.ofBits (w.extractLsb' 21 5)) (.ofBits (w.extractLsb' 16 5))
        ((w.extractLsb' 0 16).signExtend 32) ((w.extractLsb' 0 16).setWidth 32) none) ∧
    ∀ (i : Instr) (rs rt : Register) (imm immU : BitVec 32) (c : Option RegimmCode) (s : State),
      i.shape = .i op rs rt imm immU c → exec i s = .next (Refused i s)

/-- A REGIMM word decodes with regimm the name of the code in bits 20:16 and rt that register number, or raises
UnknownEncoding("regimm", code); executing BLTZ, BGEZ, BLTZL, BGEZL, TGEI, TGEIU, TLTI, TLTIU, TEQI, TNEI, BLTZAL,
BGEZAL, BLTZALL or BGEZALL records Unimplemented and changes nothing else. (R243, stated) -/
def Obligations.RegimmDecodeOnly : Prop :=
  (∀ w : Word, w.extractLsb' 26 6 = 1 →
    (∀ c, RegimmCode.lookup (w.extractLsb' 16 5) = some c → ∃ i, decode w = .ok i ∧
      i.shape = .i .regimm (.ofBits (w.extractLsb' 21 5)) (.ofBits (w.extractLsb' 16 5))
        ((w.extractLsb' 0 16).signExtend 32) ((w.extractLsb' 0 16).setWidth 32) (some c)) ∧
    (RegimmCode.lookup (w.extractLsb' 16 5) = none →
      decode w = .unknownEncoding .regimm (w.extractLsb' 16 5).toNat)) ∧
  ∀ (i : Instr) (rs rt : Register) (imm immU : BitVec 32) (c : Option RegimmCode) (s : State),
    i.shape = .i .regimm rs rt imm immU c → exec i s = .next (Refused i s)

/-- When the run is in progress, the index is in the sequence and the word there decodes to i, step answers exactly what
exec answers for i; the index is moved on by exec's success alone. (R277, derived) -/
def Obligations.StepRunsDecodedInstruction : Prop :=
  ∀ (s : State) (i : Instr) (h : s.k < s.words.length), s.status = .running → decode s.words[s.k] = .ok i →
    i.wellFormed = true ∧ step s = exec i s

/-- A run starts at index 0, running. A running step at the end of the sequence gives done; at an undecodable word it
halts with that UnknownEncoding; otherwise it executes the decoded instruction and gives the index one further and
running, or halted with OverflowFault or Unimplemented; Register File and index stay in every case but success. (R277,
stated) -/
def Obligations.DriverStep : Prop :=
  (∀ p words, (State.start p words).k = 0 ∧ (State.start p words).status = .running ∧
    (State.start p words).rf = RegFile.init p ∧ (State.start p words).words = words) ∧
  ∀ s : State, s.status = .running →
    (s.k = s.words.length → step s = .next { s with status := .done }) ∧
    (∀ (h : s.k < s.words.length) (f : FieldName) (c : Nat), decode s.words[s.k] = .unknownEncoding f c →
      step s = .next { s with status := .halted (.fault (.unknownEncoding f c)) }) ∧
    (∀ (h : s.k < s.words.length) (i : Instr), decode s.words[s.k] = .ok i →
      ∃ t, exec i s = .next t ∧ step s = .next t ∧ t.words = s.words ∧ t.seqs = s.seqs ∧
        ((t.k = s.k + 1 ∧ t.status = .running) ∨ t = Overflowed s ∨ t = Refused i s))

/-- The model's choice (log entries 3 and 4): step answers the same state once the status is done or halted, and refuses
with IndexOutOfRange in a running state whose index lies beyond the end, which no run reaches. (R277, R262, derived) -/
def Obligations.EndedRunStays : Prop :=
  ∀ s : State,
    (s.status ≠ .running → step s = .next s) ∧
    (s.status = .running → s.words.length < s.k → step s = .refused .indexOutOfRange)

/-- From every running state whose index k is at most the length, some number of steps, at most length - k + 1 (so length
+ 1 from the start), answers a next state that is done with k = length, or halted. (R278, stated) -/
def Obligations.RunTerminates : Prop :=
  (∀ s : State, s.status = .running → s.k ≤ s.words.length →
    ∃ (n : Nat) (t : State), n ≤ s.words.length - s.k + 1 ∧ Sys2Proof.core.run n s = .next t ∧ Ended t) ∧
  ∀ s t : State, s.status = .running → step s = .next t → (t.k = s.k + 1 ∧ t.status = .running) ∨ (t.k = s.k ∧ Ended t)

/-- From every running state with index at most the length, the run to its end gives the state that executing the
decode_all results from the index on gives, stopping at the first UnknownEncoding or at the first execution that does
not return Ok; from the start (index 0) that is the whole decode_all sequence. The same division by zero draws the
same P_DIV0_HI on both sides: both start from the same count of draws, by which the model names the draw (the model's
choice, log entry 8). (R279, R277, R71, R101, derived) -/
def Obligations.DecodeAheadEquivalence : Prop :=
  (∀ s : State, s.status = .running → s.k ≤ s.words.length →
    Sys2Proof.core.run (s.words.length - s.k + 1) s = .next (runDecoded ((decodeAll s.words).drop s.k) s)) ∧
  ∀ p words, Sys2Proof.core.run (words.length + 1) (State.start p words) =
    .next (runDecoded (decodeAll words) (State.start p words))

/-- For every choice of the initial contents P_INIT_RF and every word sequence, r0 reads 0, each of r1 to r31, lo and hi
reads P_INIT_RF of that register, and the sequence any call of decode_all makes is at position 0. (R40, stated) -/
def Obligations.StartValues : Prop :=
  ∀ (p : Register → DWord) (words : List Word),
    (State.start p words).rf.read Register.zero = 0 ∧
    (∀ r, r ≠ Register.zero → (State.start p words).rf.read r = p r) ∧
    ∀ ws : List Word,
      let call := (State.start p words).decodeAllNew ws
      call.2.seqs[call.1]? = some { words := ws, pos := 0 }

/-- r0 reads 0, the index is 0 and the run is in progress, as the spec says; that every other register holds 0 and that no
program is placed is the model's choice (log entries 6 and 12). (R40, R276, R277, derived) -/
def Obligations.ResetState : Prop :=
  State.reset = State.start (fun _ => 0) [] ∧ State.reset.rf.read Register.zero = 0 ∧
  State.reset.k = 0 ∧ State.reset.status = .running ∧ step State.reset = .next { State.reset with status := .done }

/-- At reset, and at the start of a run of any words with any initial contents, slot r0 holds 0, the index lies in the
sequence or at its end, done means at the end, halted means before it, and no decode_all sequence's position passes
the end of its words. (R26, R276, R277, derived) -/
def Obligations.InvAtReset : Prop :=
  Inv State.reset ∧ ∀ p words, Inv (State.start p words)

/-- For every state with the invariant (slot r0 holds 0; index at most the length; done only at the end of the sequence;
halted only at a word of it; the position of each decode_all sequence at most its length), the next state of a step
has it, and such a state is never refused and never faults; a call of decode_all and the taking of one element of any
sequence keep it too, and leave the Register File alone. (R26, R39, R73, R277, R278, derived) -/
def Obligations.StepKeepsInv : Prop :=
  ∀ s : State, Inv s →
    (∃ t, step s = .next t ∧ Inv t) ∧
    (∀ words, Inv (s.decodeAllNew words).2 ∧ (s.decodeAllNew words).2.rf = s.rf) ∧
    ∀ n, Inv (s.decodeAllNext n).2 ∧ (s.decodeAllNext n).2.rf = s.rf

/-- From every state, with any number of decode_all sequences held, ask them in any order: what each gives, and what it is
left as, is what it gives and is left as when it alone is asked as often; and a call of decode_all made before that
changes nothing of it. (Sequences are named by their place in the state's list, the model's way of naming them, log
entry 11.) (R39, R20, derived) -/
def Obligations.DecodeAllInterleaved : Prop :=
  ∀ (s : State) (asked : List Nat) (n : Nat),
    (s.takes asked).1.filter (fun e => e.1 == n) = (s.takes (asked.filter (· == n))).1 ∧
    (s.takes asked).2.seqs[n]? = (s.takes (asked.filter (· == n))).2.seqs[n]? ∧
    ∀ words : List Word, (∀ m ∈ asked, m < s.seqs.length) →
      ((s.decodeAllNew words).2.takes asked).1 = (s.takes asked).1 ∧
      ((s.decodeAllNew words).2.takes asked).2 = ((s.takes asked).2.decodeAllNew words).2

end
end

