-- ==== Sys2Proof/Laws/Decode.lean ====
section
/-! SUPPORT. The closed sets' tables and codes agree in both directions (R63 to R67); `extract` on the decoder's ranges is
the field it reads (R12, R69); the words of the four formats have the bits R52 to R55 place; `decodeAt` in its two
cases. -/

namespace Sys2Proof

@[simp] theorem RFunc.lookup_code (f : RFunc) : RFunc.lookup f.code = some f := by cases f <;> rfl
@[simp] theorem Opcode.lookup_special : Opcode.lookup Opcode.special.code = some .special := rfl
@[simp] theorem Opcode.lookup_cop1 : Opcode.lookup Opcode.cop1.code = some .cop1 := rfl
@[simp] theorem Opcode.lookup_j (op : JOpcode) : Opcode.lookup op.code = some (.j op) := by cases op <;> rfl
@[simp] theorem Opcode.lookup_i (op : IOpcode) : Opcode.lookup op.code = some (.i op) := by cases op <;> rfl
@[simp] theorem RegimmCode.lookup_code (c : RegimmCode) : RegimmCode.lookup c.code = some c := by cases c <;> rfl
@[simp] theorem Cop1Func.lookup_code (f : Cop1Func) : Cop1Func.lookup f.code = some f := by cases f <;> rfl
@[simp] theorem Cop1Fmt.lookup_code (m : Cop1Fmt) : Cop1Fmt.lookup m.code = some m := by
  rcases m with _ | _ | _ | _ | _ | _ | _ | m <;> first | rfl | (cases m <;> rfl)

theorem RFunc.code_of_lookup : ∀ (c : BitVec 6) (f : RFunc), RFunc.lookup c = some f → f.code = c := by
  have h : ∀ c : BitVec 6, (RFunc.lookup c).all (fun f => f.code == c) = true := by decide
  intro c f hf; have := h c; rw [hf] at this; simpa using this

theorem Opcode.code_of_lookup : ∀ (c : BitVec 6) (o : Opcode), Opcode.lookup c = some o → o.code = c := by
  have h : ∀ c : BitVec 6, (Opcode.lookup c).all (fun o => o.code == c) = true := by decide
  intro c o ho; have := h c; rw [ho] at this; simpa using this

theorem RegimmCode.code_of_lookup : ∀ (c : BitVec 5) (r : RegimmCode), RegimmCode.lookup c = some r → r.code = c := by
  have h : ∀ c : BitVec 5, (RegimmCode.lookup c).all (fun r => r.code == c) = true := by decide
  intro c r hr; have := h c; rw [hr] at this; simpa using this

theorem Cop1Fmt.code_of_lookup : ∀ (c : BitVec 5) (m : Cop1Fmt), Cop1Fmt.lookup c = some m → m.code = c := by
  have h : ∀ c : BitVec 5, (Cop1Fmt.lookup c).all (fun m => m.code == c) = true := by decide
  intro c m hm; have := h c; rw [hm] at this; simpa using this

theorem Cop1Func.code_of_lookup : ∀ (c : BitVec 6) (f : Cop1Func), Cop1Func.lookup c = some f → f.code = c := by
  have h : ∀ c : BitVec 6, (Cop1Func.lookup c).all (fun f => f.code == c) = true := by decide
  intro c f hf; have := h c; rw [hf] at this; simpa using this

@[simp] theorem Register.toBits_ofBits (b : BitVec 5) : (Register.ofBits b).toBits = b := by
  simp [Register.ofBits, Register.toBits]

@[simp] theorem FPRegister.toBits_ofBits (b : BitVec 5) : (FPRegister.ofBits b).toBits = b := by
  simp [FPRegister.ofBits, FPRegister.toBits]

theorem Register.ofBits_toBits {r : Register} (h : r.isGpr = true) : Register.ofBits r.toBits = r := by
  have h32 : r.val < 32 := by simpa [Register.isGpr] using h
  apply Fin.ext
  simp [Register.ofBits, Register.toBits, Nat.mod_eq_of_lt h32]

@[simp] theorem FPRegister.ofBits_toBits (f : FPRegister) : FPRegister.ofBits f.toBits = f := by
  apply Fin.ext
  simp [FPRegister.ofBits, FPRegister.toBits]

/-- A decoded register field names `r0` to `r31` (R56). -/
@[simp] theorem Register.isGpr_ofBits (b : BitVec 5) : (Register.ofBits b).isGpr = true := by
  exact decide_eq_true b.isLt

/-! The fields of a word put together by format (R52 to R55), most significant field first. -/

section Fields
variable (op fn : BitVec 6) (a b c d : BitVec 5) (addr : BitVec 26) (imm : BitVec 16)

/-- A word of six fields (R52, R53). -/
def sixFields (op : BitVec 6) (a b c d : BitVec 5) (fn : BitVec 6) : Word := (op ++ a ++ b ++ c ++ d ++ fn : BitVec 32)
/-- A word of an opcode and a 26-bit field (R54). -/
def twoFields (op : BitVec 6) (addr : BitVec 26) : Word := (op ++ addr : BitVec 32)
/-- A word of an opcode, two register fields and a 16-bit field (R55). -/
def fourFields (op : BitVec 6) (a b : BitVec 5) (imm : BitVec 16) : Word := (op ++ a ++ b ++ imm : BitVec 32)

theorem append_low {n m : Nat} (x : BitVec n) (y : BitVec m) : (x ++ y).extractLsb' 0 m = y := by
  ext i hi
  simp [BitVec.getLsbD_append, hi, BitVec.getLsbD_eq_getElem]

theorem append_high {n m : Nat} (x : BitVec n) (y : BitVec m) (lo len : Nat) (h : m ≤ lo) :
    (x ++ y).extractLsb' lo len = x.extractLsb' (lo - m) len := by
  ext i hi
  have h1 : ¬ lo + i < m := by omega
  have h2 : lo + i - m = lo - m + i := by omega
  simp [BitVec.getLsbD_append, h1, h2]

theorem extract_all {n : Nat} (x : BitVec n) : x.extractLsb' 0 n = x := by
  ext i hi; simp

@[simp] theorem field_six_fn : field (sixFields op a b c d fn) 0 6 = fn := append_low _ _
@[simp] theorem field_six_d : field (sixFields op a b c d fn) 6 5 = d :=
  (append_high _ _ 6 5 (by decide)).trans (append_low _ _)
@[simp] theorem field_six_c : field (sixFields op a b c d fn) 11 5 = c :=
  (append_high _ _ 11 5 (by decide)).trans ((append_high _ _ 5 5 (by decide)).trans (append_low _ _))
@[simp] theorem field_six_b : field (sixFields op a b c d fn) 16 5 = b :=
  (append_high _ _ 16 5 (by decide)).trans ((append_high _ _ 10 5 (by decide)).trans
    ((append_high _ _ 5 5 (by decide)).trans (append_low _ _)))
@[simp] theorem field_six_a : field (sixFields op a b c d fn) 21 5 = a :=
  (append_high _ _ 21 5 (by decide)).trans ((append_high _ _ 15 5 (by decide)).trans
    ((append_high _ _ 10 5 (by decide)).trans ((append_high _ _ 5 5 (by decide)).trans (append_low _ _))))
@[simp] theorem field_six_op : field (sixFields op a b c d fn) 26 6 = op :=
  (append_high _ _ 26 6 (by decide)).trans ((append_high _ _ 20 6 (by decide)).trans
    ((append_high _ _ 15 6 (by decide)).trans ((append_high _ _ 10 6 (by decide)).trans
      ((append_high _ _ 5 6 (by decide)).trans (extract_all _)))))

@[simp] theorem field_two_addr : field (twoFields op addr) 0 26 = addr := append_low _ _
@[simp] theorem field_two_op : field (twoFields op addr) 26 6 = op :=
  (append_high _ _ 26 6 (by decide)).trans (extract_all _)

@[simp] theorem field_four_imm : field (fourFields op a b imm) 0 16 = imm := append_low _ _
@[simp] theorem field_four_b : field (fourFields op a b imm) 16 5 = b :=
  (append_high _ _ 16 5 (by decide)).trans (append_low _ _)
@[simp] theorem field_four_a : field (fourFields op a b imm) 21 5 = a :=
  (append_high _ _ 21 5 (by decide)).trans ((append_high _ _ 5 5 (by decide)).trans (append_low _ _))
@[simp] theorem field_four_op : field (fourFields op a b imm) 26 6 = op :=
  (append_high _ _ 26 6 (by decide)).trans ((append_high _ _ 10 6 (by decide)).trans
    ((append_high _ _ 5 6 (by decide)).trans (extract_all _)))

end Fields

/-- A word is its six fields. -/
theorem sixFields_eta (w : Word) :
    sixFields (field w 26 6) (field w 21 5) (field w 16 5) (field w 11 5) (field w 6 5) (field w 0 6) = w := by
  have h : ∀ (n m : Nat) (lo : Nat), w.extractLsb' (lo + m) n ++ w.extractLsb' lo m = w.extractLsb' lo (n + m) := by
    intro n m lo
    ext i hi
    simp only [BitVec.getElem_append, BitVec.getElem_extractLsb']
    split
    · rfl
    · congr 1; omega
  have h1 := h 6 5 21
  have h2 := h 11 5 16
  have h3 := h 16 5 11
  have h4 := h 21 5 6
  have h5 := h 26 6 0
  have h6 : w.extractLsb' 0 32 = w := extract_all w
  simp only [sixFields, field]
  exact (congrArg (fun x : BitVec 26 => (x ++ w.extractLsb' 0 6 : BitVec 32))
    ((congrArg (fun x : BitVec 21 => (x ++ w.extractLsb' 6 5 : BitVec 26))
      ((congrArg (fun x : BitVec 16 => (x ++ w.extractLsb' 11 5 : BitVec 21))
        ((congrArg (fun x : BitVec 11 => (x ++ w.extractLsb' 16 5 : BitVec 16)) h1).trans h2)).trans h3)).trans h4)).trans
    (h5.trans h6)

/-! The shapes' words as fields. -/

theorem Shape.encode_r (rs rt rd : Register) (shamt : BitVec 5) (f : RFunc) :
    (Shape.r rs rt rd shamt f).encode = sixFields Opcode.special.code rs.toBits rt.toBits rd.toBits shamt f.code := rfl

theorem Shape.encode_fr (m : Cop1Fmt) (ft fs fd : FPRegister) (f : FrFunc) (nd tf : Option Bool) :
    (Shape.fr m ft fs fd f nd tf).encode = sixFields Opcode.cop1.code m.code ft.toBits fs.toBits fd.toBits f.bits := rfl

theorem Shape.encode_j (op : JOpcode) (addr : BitVec 26) : (Shape.j op addr).encode = twoFields op.code addr := rfl

theorem Shape.encode_i (op : IOpcode) (rs rt : Register) (imm : BitVec 16) (c : Option RegimmCode) :
    (Shape.i op rs rt (immSigned imm) (immUnsigned imm) c).encode = fourFields op.code rs.toBits rt.toBits imm := by
  have h : (immSigned imm).setWidth 16 = imm := by
    ext i hi
    have h32 : i < 32 := by omega
    simp [immSigned, BitVec.getElem_signExtend, hi, h32, BitVec.getLsbD_eq_getElem]
  show fourFields op.code rs.toBits rt.toBits ((immSigned imm).setWidth 16) = _
  rw [h]

namespace Machine

/-- `extract` inside its domain, unsigned, is the field (R12). -/
theorem extract_unsigned (w : Word) (lo len : Nat) (h : lo + len < 32) :
    extract w (lo + len : Nat) lo false = .ok ((field w lo (len + 1)).toNat : Int) := by
  have h1 : ((lo + len : Nat) : Int) - (lo : Int) + 1 = ((len + 1 : Nat) : Int) := by omega
  have hc : 0 ≤ (lo : Int) ∧ (lo : Int) ≤ ((lo + len : Nat) : Int) ∧ ((lo + len : Nat) : Int) ≤ 31 := by omega
  rw [extract, if_pos hc, h1]
  rfl

@[simp] theorem decodeAt_of_lt (words : List Word) (n : Nat) (h : n < words.length) :
    decodeAt words (n : Int) = .ok (decode words[n]) := by
  simp only [decodeAt, List.getElem?_eq_getElem h]

theorem decodeAt_of_ge (words : List Word) (n : Nat) (h : words.length ≤ n) :
    decodeAt words (n : Int) = .error .indexOutOfRange := by
  simp only [decodeAt, List.getElem?_eq_none h]

/-- All that taking an element of a sequence can do (R39): give the result at its position and move on, or, exhausted,
give nothing and stay. -/
theorem DecodeSeq.next_cases (q : DecodeSeq) :
    (∃ h : q.pos < q.words.length, q.next = (some (decode q.words[q.pos]), { q with pos := q.pos + 1 })) ∨
    (q.words.length ≤ q.pos ∧ q.next = (none, q)) := by
  unfold DecodeSeq.next
  by_cases h : q.pos < q.words.length
  · rw [decodeAt_of_lt _ _ h]; exact .inl ⟨h, rfl⟩
  · rw [decodeAt_of_ge _ _ (Nat.le_of_not_lt h)]; exact .inr ⟨Nat.le_of_not_lt h, rfl⟩

theorem decodeAt_of_neg (words : List Word) (n : Int) (h : n < 0) : decodeAt words n = .error .indexOutOfRange := by
  cases n with
  | ofNat n => exact absurd h (by simp)
  | negSucc n => rfl

end Machine

end Sys2Proof
end

