-- ==== Sys2Proof/Laws/RegFile.lean ====
section
/-! SUPPORT. The laws of the Register File: a read after a write to the same register gives what was written (nothing for
`r0`), a write leaves every other register alone, and the halves are independent. -/

namespace Sys2Proof.Machine

variable (rf : RegFile) {r q : Register}

@[simp] theorem RegFile.read_zero : rf.read Register.zero = 0 := rfl

@[simp] theorem RegFile.write64_zero (p : DWord) : rf.write64 Register.zero p = rf := rfl

theorem RegFile.read_write64_same (h : r ≠ Register.zero) (p : DWord) : (rf.write64 r p).read r = p := by
  simp [RegFile.read, RegFile.write64, h]

theorem RegFile.read_write64_other (h : q ≠ r) (p : DWord) : (rf.write64 r p).read q = rf.read q := by
  have hv : (r : Nat) ≠ (q : Nat) := fun e => h (Fin.ext e.symm)
  unfold RegFile.write64
  split_ifs
  · rfl
  · simp [RegFile.read, hv]

/-- Everything `Write64` can do to a read. -/
theorem RegFile.read_write64 (p : DWord) :
    (rf.write64 r p).read q = if q = r ∧ r ≠ Register.zero then p else rf.read q := by
  by_cases hq : q = r
  · subst hq
    by_cases h0 : q = Register.zero
    · subst h0; simp
    · simp [h0, RegFile.read_write64_same]
  · simp [hq, RegFile.read_write64_other]

/-- The stored slot of `r0` is never written. -/
@[simp] theorem RegFile.slot_zero_write64 (p : DWord) :
    (rf.write64 r p).slots[0] = rf.slots[0] := by
  unfold RegFile.write64
  split_ifs with h
  · rfl
  · have hv : (r : Nat) ≠ 0 := fun e => h (Fin.ext e)
    simp [hv]

theorem getLsbD_halves (a b : Word) (i : Nat) :
    (a ++ b : DWord).getLsbD i = if i < 32 then b.getLsbD i else a.getLsbD (i - 32) :=
  BitVec.getLsbD_append

theorem append_lo (a b : Word) : (a ++ b : DWord).extractLsb' 0 32 = b := by
  ext i hi
  simp [getLsbD_halves, hi, BitVec.getLsbD_eq_getElem]

theorem append_hi (a b : Word) : (a ++ b : DWord).extractLsb' 32 32 = a := by
  ext i hi
  simp [getLsbD_halves, hi, BitVec.getLsbD_eq_getElem]

theorem halves_append (p : DWord) : (p.extractLsb' 32 32 ++ p.extractLsb' 0 32 : DWord) = p := by
  apply BitVec.eq_of_getLsbD_eq
  intro i hi
  rw [getLsbD_halves]
  split
  · simp [*]
  · have h1 : i - 32 < 32 := by omega
    have h2 : 32 + (i - 32) = i := by omega
    simp [h1, h2]

theorem RegFile.readLo_write32_lo (h : r ≠ Register.zero) (p : Word) : (rf.write32 r .lo p).readLo r = p := by
  simp [RegFile.write32, RegFile.readLo, RegFile.read_write64_same, h, append_lo]

theorem RegFile.readHi_write32_lo (p : Word) : (rf.write32 r .lo p).readHi r = rf.readHi r := by
  by_cases h : r = Register.zero
  · subst h; rfl
  · simp [RegFile.write32, RegFile.readHi, RegFile.read_write64_same, h, append_hi]

theorem RegFile.readHi_write32_hi (h : r ≠ Register.zero) (p : Word) : (rf.write32 r .hi p).readHi r = p := by
  simp [RegFile.write32, RegFile.readHi, RegFile.read_write64_same, h, append_hi]

theorem RegFile.readLo_write32_hi (p : Word) : (rf.write32 r .hi p).readLo r = rf.readLo r := by
  by_cases h : r = Register.zero
  · subst h; rfl
  · simp [RegFile.write32, RegFile.readLo, RegFile.read_write64_same, h, append_lo]

theorem RegFile.read_write32_other (half : Half) (h : q ≠ r) (p : Word) : (rf.write32 r half p).read q = rf.read q := by
  cases half <;> simp [RegFile.write32, RegFile.read_write64_other, h]

@[simp] theorem RegFile.slot_zero_write32 (half : Half) (p : Word) :
    (rf.write32 r half p).slots[0] = rf.slots[0] := by
  cases half <;> simp [RegFile.write32]

/-- `WriteResult32` leaves every other register alone. -/
theorem RegFile.read_writeResult32_other (m : W32Hi) (h : q ≠ r) (p : Word) :
    (rf.writeResult32 m r p).read q = rf.read q := by
  cases m <;> simp [RegFile.writeResult32, RegFile.read_write32_other, RegFile.read_write64_other, h]

/-- In both settings the lo half holds the result (R85). -/
theorem RegFile.readLo_writeResult32 (m : W32Hi) (h : r ≠ Register.zero) (p : Word) :
    (rf.writeResult32 m r p).readLo r = p := by
  cases m
  · exact rf.readLo_write32_lo h p
  · simp only [RegFile.writeResult32, RegFile.readLo, RegFile.read_write64_same _ h]
    ext i hi
    have h64 : i < 64 := by omega
    simp [BitVec.getElem_signExtend, BitVec.getLsbD_eq_getElem, hi, h64]

/-- The hi half keeps its bits, or takes copies of the result's bit 31 (R85). -/
theorem RegFile.readHi_writeResult32 (m : W32Hi) (h : r ≠ Register.zero) (p : Word) :
    (rf.writeResult32 m r p).readHi r =
      match m with
      | .preserve => rf.readHi r
      | .sext => if p.msb then BitVec.allOnes 32 else 0 := by
  cases m
  · exact rf.readHi_write32_lo p
  · simp only [RegFile.writeResult32, RegFile.readHi, RegFile.read_write64_same _ h]
    ext i hi
    have h64 : 32 + i < 64 := by omega
    cases hp : p.msb <;> simp [BitVec.getElem_signExtend, hp, h64, -BitVec.reduceAllOnes]

@[simp] theorem RegFile.slot_zero_writeResult32 (m : W32Hi) (p : Word) :
    (rf.writeResult32 m r p).slots[0] = rf.slots[0] := by
  cases m <;> simp [RegFile.writeResult32]

end Sys2Proof.Machine
end

