-- ==== Sys2Proof/Laws/State.lean ====
section
/-! SUPPORT. One lemma per field per update of the state, true by unfolding, so that no later proof opens a record
update; the forms `settle` and `fetch` can take. -/

namespace Sys2Proof.Machine

variable (s : State) (h : Halt) (rf : RegFile) (w : Word) (b : Bool)

@[simp] theorem State.halt_rf : (s.halt h).rf = s.rf := rfl
@[simp] theorem State.halt_words : (s.halt h).words = s.words := rfl
@[simp] theorem State.halt_k : (s.halt h).k = s.k := rfl
@[simp] theorem State.halt_status : (s.halt h).status = .halted h := rfl
@[simp] theorem State.halt_seqs : (s.halt h).seqs = s.seqs := rfl
@[simp] theorem State.halt_draws : (s.halt h).draws = s.draws := rfl

@[simp] theorem State.retire_rf : (s.retire rf).rf = rf := rfl
@[simp] theorem State.retire_words : (s.retire rf).words = s.words := rfl
@[simp] theorem State.retire_k : (s.retire rf).k = s.k + 1 := rfl
@[simp] theorem State.retire_status : (s.retire rf).status = s.status := rfl
@[simp] theorem State.retire_seqs : (s.retire rf).seqs = s.seqs := rfl
@[simp] theorem State.retire_draws : (s.retire rf).draws = s.draws := rfl

@[simp] theorem State.finish_rf : (s.finish).rf = s.rf := rfl
@[simp] theorem State.finish_words : (s.finish).words = s.words := rfl
@[simp] theorem State.finish_k : (s.finish).k = s.k := rfl
@[simp] theorem State.finish_status : (s.finish).status = .done := rfl
@[simp] theorem State.finish_seqs : (s.finish).seqs = s.seqs := rfl
@[simp] theorem State.finish_draws : (s.finish).draws = s.draws := rfl

variable (ws : List Word) (n : Nat)

@[simp] theorem State.decodeAllNew_rf : (s.decodeAllNew ws).2.rf = s.rf := rfl
@[simp] theorem State.decodeAllNew_words : (s.decodeAllNew ws).2.words = s.words := rfl
@[simp] theorem State.decodeAllNew_k : (s.decodeAllNew ws).2.k = s.k := rfl
@[simp] theorem State.decodeAllNew_status : (s.decodeAllNew ws).2.status = s.status := rfl
@[simp] theorem State.decodeAllNew_seqs : (s.decodeAllNew ws).2.seqs = s.seqs ++ [DecodeSeq.new ws] := rfl
@[simp] theorem State.decodeAllNew_draws : (s.decodeAllNew ws).2.draws = s.draws := rfl
@[simp] theorem State.decodeAllNew_name : (s.decodeAllNew ws).1 = s.seqs.length := rfl

/-- Taking an element changes the sequences alone, whether there is one of that name or not. -/
theorem State.decodeAllNext_eq : (s.decodeAllNext n).2 = { s with seqs := (s.decodeAllNext n).2.seqs } := by
  unfold State.decodeAllNext; split <;> rfl

@[simp] theorem State.decodeAllNext_rf : (s.decodeAllNext n).2.rf = s.rf := by rw [State.decodeAllNext_eq]
@[simp] theorem State.decodeAllNext_words : (s.decodeAllNext n).2.words = s.words := by rw [State.decodeAllNext_eq]
@[simp] theorem State.decodeAllNext_k : (s.decodeAllNext n).2.k = s.k := by rw [State.decodeAllNext_eq]
@[simp] theorem State.decodeAllNext_status : (s.decodeAllNext n).2.status = s.status := by rw [State.decodeAllNext_eq]
@[simp] theorem State.decodeAllNext_draws : (s.decodeAllNext n).2.draws = s.draws := by rw [State.decodeAllNext_eq]

theorem State.decodeAllNext_of_some {q : DecodeSeq} (hq : s.seqs[n]? = some q) :
    s.decodeAllNext n = (q.next.1, { s with seqs := s.seqs.set n q.next.2 }) := by
  simp only [State.decodeAllNext, hq]

theorem State.decodeAllNext_of_none (hn : s.seqs[n]? = none) : s.decodeAllNext n = (none, s) := by
  simp only [State.decodeAllNext, hn]

/-- The sequence asked is left as its own `next` leaves it. -/
theorem State.decodeAllNext_self {q : DecodeSeq} (hq : s.seqs[n]? = some q) :
    (s.decodeAllNext n).2.seqs[n]? = some q.next.2 := by
  rw [State.decodeAllNext_of_some _ _ hq]
  simp [(List.getElem?_eq_some_iff.1 hq).1]

/-- Every other sequence stays as it was. -/
theorem State.decodeAllNext_other {m : Nat} (hm : m ≠ n) : (s.decodeAllNext n).2.seqs[m]? = s.seqs[m]? := by
  unfold State.decodeAllNext
  split
  · simp [hm.symm]
  · rfl

/-- Every sequence already made stays as it was when another is made. -/
theorem State.decodeAllNew_other (hn : n < s.seqs.length) : (s.decodeAllNew ws).2.seqs[n]? = s.seqs[n]? := by
  rw [State.decodeAllNew_seqs, List.getElem?_append_left hn]

@[simp] theorem DecodeSeq.new_words : (DecodeSeq.new ws).words = ws := rfl
@[simp] theorem DecodeSeq.new_pos : (DecodeSeq.new ws).pos = 0 := rfl

@[simp] theorem State.withWord_rf : (s.withWord w).rf = s.rf := rfl
@[simp] theorem State.withWord_words : (s.withWord w).words = placeWord s.words s.k w := rfl
@[simp] theorem State.withWord_k : (s.withWord w).k = s.k := rfl
@[simp] theorem State.withWord_status : (s.withWord w).status = .running := rfl
@[simp] theorem State.withWord_seqs : (s.withWord w).seqs = s.seqs := rfl
@[simp] theorem State.withWord_draws : (s.withWord w).draws = s.draws := rfl

@[simp] theorem State.drawIf_rf : (s.drawIf b).rf = s.rf := by cases b <;> rfl
@[simp] theorem State.drawIf_words : (s.drawIf b).words = s.words := by cases b <;> rfl
@[simp] theorem State.drawIf_k : (s.drawIf b).k = s.k := by cases b <;> rfl
@[simp] theorem State.drawIf_status : (s.drawIf b).status = s.status := by cases b <;> rfl
@[simp] theorem State.drawIf_seqs : (s.drawIf b).seqs = s.seqs := by cases b <;> rfl
@[simp] theorem State.drawIf_draws : (s.drawIf b).draws = if b then s.draws + 1 else s.draws := by cases b <;> rfl

@[simp] theorem State.settle_ok : s.settle (.ok rf) = s.retire rf := rfl
@[simp] theorem State.settle_overflowFault : s.settle .overflowFault = s.halt (.fault .overflowFault) := rfl
@[simp] theorem State.settle_unimplemented (i : Instr) :
    s.settle (.unimplemented i) = s.halt (.refusal (.unimplemented i)) := rfl

/-- What settling an outcome never changes. -/
@[simp] theorem State.settle_words (r : ExecResult) : (s.settle r).words = s.words := by cases r <;> rfl
@[simp] theorem State.settle_seqs (r : ExecResult) : (s.settle r).seqs = s.seqs := by cases r <;> rfl
@[simp] theorem State.settle_draws (r : ExecResult) : (s.settle r).draws = s.draws := by cases r <;> rfl

theorem State.withFetchWord_eq (nbits n : Nat) :
    s.withFetchWord nbits n = s.withWord (BitVec.ofNat 32 (n % 2 ^ nbits)) := rfl

@[simp] theorem State.reset_rf : State.reset.rf = ⟨Vector.replicate 34 0⟩ := rfl
@[simp] theorem State.reset_words : State.reset.words = [] := rfl
@[simp] theorem State.reset_k : State.reset.k = 0 := rfl
@[simp] theorem State.reset_status : State.reset.status = .running := rfl
@[simp] theorem State.reset_seqs : State.reset.seqs = [] := rfl
@[simp] theorem State.reset_draws : State.reset.draws = 0 := rfl

@[simp] theorem State.start_rf (p : Register → DWord) (ws : List Word) : (State.start p ws).rf = RegFile.init p := rfl
@[simp] theorem State.start_words (p : Register → DWord) (ws : List Word) : (State.start p ws).words = ws := rfl
@[simp] theorem State.start_k (p : Register → DWord) (ws : List Word) : (State.start p ws).k = 0 := rfl
@[simp] theorem State.start_status (p : Register → DWord) (ws : List Word) : (State.start p ws).status = .running := rfl
@[simp] theorem State.start_seqs (p : Register → DWord) (ws : List Word) : (State.start p ws).seqs = [] := rfl
@[simp] theorem State.start_draws (p : Register → DWord) (ws : List Word) : (State.start p ws).draws = 0 := rfl

end Sys2Proof.Machine
end

