-- ==== Sys2Proof/Laws/Exec.lean ====
section
/-! SUPPORT. What the shared operations can answer (one lemma each), what `exec` can answer for any instruction, and the
cases of one step of the reference driver. A proof over the machine cites these and unfolds nothing below them. -/

namespace Sys2Proof.Machine

variable (m : W32Hi) (draw : DWord) (dst : Register) (rf : RegFile)

/-- The signed range of R87, as an inequality. -/
theorem fitsSigned_iff (n : Nat) (v : Int) : fitsSigned n v = true ↔ -(2 ^ (n - 1)) ≤ v ∧ v ≤ 2 ^ (n - 1) - 1 := by
  simp [fitsSigned]

/-- A 32-bit signed addition: the fault out of range, else the write of the sum (R87). -/
theorem addTrap32_cases (a b : Int) :
    (fitsSigned 32 (a + b) = true ∧ addTrap32 m dst a b rf = .ok (rf.writeResult32 m dst (BitVec.ofInt 32 (a + b)))) ∨
    (fitsSigned 32 (a + b) = false ∧ addTrap32 m dst a b rf = .overflowFault) := by
  unfold addTrap32
  cases fitsSigned 32 (a + b) <;> simp

/-- A 64-bit signed addition, likewise. -/
theorem addTrap64_cases (a b : Int) :
    (fitsSigned 64 (a + b) = true ∧ addTrap64 dst a b rf = .ok (rf.write64 dst (BitVec.ofInt 64 (a + b)))) ∨
    (fitsSigned 64 (a + b) = false ∧ addTrap64 dst a b rf = .overflowFault) := by
  unfold addTrap64
  cases fitsSigned 64 (a + b) <;> simp

/-- A 32-bit addition modulo 2^32 always retires, and its sum is the sum of the patterns (R93). -/
theorem addWrap32_eq (a b : Nat) :
    addWrap32 m dst a b rf = .ok (rf.writeResult32 m dst (BitVec.ofNat 32 (a + b))) := by
  unfold addWrap32
  congr 2
  apply BitVec.eq_of_toNat_eq
  simp

/-- A 64-bit addition modulo 2^64 always retires (R97). -/
theorem addWrap64_eq (a b : Nat) : addWrap64 dst a b rf = .ok (rf.write64 dst (BitVec.ofNat 64 (a + b))) := by
  unfold addWrap64
  congr 2
  apply BitVec.eq_of_toNat_eq
  simp

/-! What an operation's result leaves alone. `Keeps dests rf r`: if `r` is a success, every register outside `dests` reads as
in `rf` and the stored slot of `r0` is as in `rf`. -/

/-- The register frame of an operation. -/
structure ExecResult.Keeps (dests : List Register) (rf : RegFile) (r : ExecResult) : Prop where
  of : ∀ rf', r = .ok rf' → (∀ q, q ∉ dests → rf'.read q = rf.read q) ∧ rf'.slots[0] = rf.slots[0]

variable {rf}

theorem keeps_unimplemented (dests : List Register) (i : Instr) : (ExecResult.unimplemented i).Keeps dests rf := by
  constructor; rintro rf' ⟨⟩

theorem keeps_overflowFault (dests : List Register) : ExecResult.overflowFault.Keeps dests rf := by
  constructor; rintro rf' ⟨⟩

theorem keeps_writeResult32 (p : Word) : (ExecResult.ok (rf.writeResult32 m dst p)).Keeps [dst] rf := by
  constructor; rintro rf' ⟨⟩
  exact ⟨fun q hq => rf.read_writeResult32_other m (by simpa using hq) p, rf.slot_zero_writeResult32 m p⟩

theorem keeps_write64 (p : DWord) : (ExecResult.ok (rf.write64 dst p)).Keeps [dst] rf := by
  constructor; rintro rf' ⟨⟩
  exact ⟨fun q hq => rf.read_write64_other (by simpa using hq) p, rf.slot_zero_write64 p⟩

theorem keeps_addTrap32 (a b : Int) : (addTrap32 m dst a b rf).Keeps [dst] rf := by
  obtain ⟨-, h⟩ | ⟨-, h⟩ := addTrap32_cases m dst rf a b <;> rw [h]
  · exact keeps_writeResult32 ..
  · exact keeps_overflowFault _

theorem keeps_addTrap64 (a b : Int) : (addTrap64 dst a b rf).Keeps [dst] rf := by
  obtain ⟨-, h⟩ | ⟨-, h⟩ := addTrap64_cases dst rf a b <;> rw [h]
  · exact keeps_write64 ..
  · exact keeps_overflowFault _

theorem keeps_addWrap32 (a b : Nat) : (addWrap32 m dst a b rf).Keeps [dst] rf := keeps_writeResult32 ..

theorem keeps_addWrap64 (a b : Nat) : (addWrap64 dst a b rf).Keeps [dst] rf := keeps_write64 ..

/-- The divisions' destinations (R23, R99). -/
theorem keeps_commitDiv32 (q r : Word) : (commitDiv32 m q r rf).Keeps [Register.lo, Register.hi] rf := by
  constructor; rintro rf' ⟨⟩
  refine ⟨fun x hx => ?_, by simp⟩
  simp only [List.mem_cons, List.not_mem_nil, or_false, not_or] at hx
  rw [RegFile.read_writeResult32_other _ _ hx.2, RegFile.read_writeResult32_other _ _ hx.1]

theorem keeps_commitDivZero32 (a : Word) : (commitDivZero32 m draw a rf).Keeps [Register.lo, Register.hi] rf := by
  constructor; rintro rf' ⟨⟩
  refine ⟨fun x hx => ?_, by simp⟩
  simp only [List.mem_cons, List.not_mem_nil, or_false, not_or] at hx
  rw [RegFile.read_write64_other _ hx.2, RegFile.read_writeResult32_other _ _ hx.1]

theorem keeps_commitDiv64 (q r : DWord) : (commitDiv64 q r rf).Keeps [Register.lo, Register.hi] rf := by
  constructor; rintro rf' ⟨⟩
  refine ⟨fun x hx => ?_, by simp⟩
  simp only [List.mem_cons, List.not_mem_nil, or_false, not_or] at hx
  rw [RegFile.read_write64_other _ hx.2, RegFile.read_write64_other _ hx.1]

theorem keeps_opDiv (rs rt : Register) : (opDiv m draw rs rt rf).Keeps [Register.lo, Register.hi] rf := by
  unfold opDiv; dsimp only; split
  · exact keeps_commitDivZero32 ..
  · exact keeps_commitDiv32 ..

theorem keeps_opDivu (rs rt : Register) : (opDivu m draw rs rt rf).Keeps [Register.lo, Register.hi] rf := by
  unfold opDivu; dsimp only; split
  · exact keeps_commitDivZero32 ..
  · exact keeps_commitDiv32 ..

theorem keeps_opDdiv (rs rt : Register) : (opDdiv draw rs rt rf).Keeps [Register.lo, Register.hi] rf := by
  unfold opDdiv; dsimp only; split <;> exact keeps_commitDiv64 ..

theorem keeps_opDdivu (rs rt : Register) : (opDdivu draw rs rt rf).Keeps [Register.lo, Register.hi] rf := by
  unfold opDdivu; dsimp only; split <;> exact keeps_commitDiv64 ..

theorem ok_opDiv (rs rt : Register) : ∃ rf', opDiv m draw rs rt rf = .ok rf' := by
  unfold opDiv; dsimp only; split <;> exact ⟨_, rfl⟩

theorem ok_opDivu (rs rt : Register) : ∃ rf', opDivu m draw rs rt rf = .ok rf' := by
  unfold opDivu; dsimp only; split <;> exact ⟨_, rfl⟩

theorem ok_opDdiv (rs rt : Register) : ∃ rf', opDdiv draw rs rt rf = .ok rf' := by
  unfold opDdiv; dsimp only; split <;> exact ⟨_, rfl⟩

theorem ok_opDdivu (rs rt : Register) : ∃ rf', opDdivu draw rs rt rf = .ok rf' := by
  unfold opDdivu; dsimp only; split <;> exact ⟨_, rfl⟩

theorem addTrap32_ne {r : ExecResult} {a b : Int} (h : r = addTrap32 m dst a b rf) (j : Instr) : r ≠ .unimplemented j := by
  rw [h]; unfold addTrap32; split <;> nofun

theorem addTrap64_ne {r : ExecResult} {a b : Int} (h : r = addTrap64 dst a b rf) (j : Instr) : r ≠ .unimplemented j := by
  rw [h]; unfold addTrap64; split <;> nofun

/-- What an outcome `r` of instruction `i`, with `b` saying that a draw is taken, can be: only a division takes a draw, a
division succeeds, and `Unimplemented` is that of `i`, which then has no operation. -/
structure Answers (i : Instr) (rf : RegFile) (b : Bool) (r : ExecResult) : Prop where
  keeps : r.Keeps i.shape.dests rf
  draw : b = true → i.shape.isDivision = true
  division : i.shape.isDivision = true → ∃ rf', r = .ok rf'
  refusal : ∀ j, r = .unimplemented j → j = i ∧ i.shape.isExecuted = false

theorem ok_ne {r : ExecResult} {rf' : RegFile} (h : r = .ok rf') (j : Instr) : r ≠ .unimplemented j := by
  rw [h]; nofun

theorem answers_unimplemented {i : Instr} (he : i.shape.isExecuted = false) (hd : i.shape.isDivision = false) :
    Answers i rf false (.unimplemented i) :=
  ⟨keeps_unimplemented .., nofun, fun h => absurd (hd.symm.trans h) nofun, fun j h => by cases h; exact ⟨rfl, he⟩⟩

/-- An addition: no draw, and no refusal. -/
theorem answers_add {i : Instr} {r : ExecResult} (hk : r.Keeps i.shape.dests rf) (hd : i.shape.isDivision = false)
    (hu : ∀ j, r ≠ .unimplemented j) : Answers i rf false r :=
  ⟨hk, nofun, fun h => absurd (hd.symm.trans h) nofun, fun j h => absurd h (hu j)⟩

theorem answers_div {i : Instr} {b : Bool} {r : ExecResult} (hk : r.Keeps i.shape.dests rf)
    (hd : i.shape.isDivision = true) (ho : ∃ rf', r = .ok rf') : Answers i rf b r :=
  ⟨hk, fun _ => hd, fun _ => ho, fun j h => by obtain ⟨rf', e⟩ := ho; cases e.symm.trans h⟩

/-- Everything `exec` can answer: a next state, which is an outcome settled over the state with at most one draw taken. -/
theorem exec_cases (i : Instr) (s : State) :
    ∃ b r, exec i s = .next ((s.drawIf b).settle r) ∧ Answers i s.rf b r := by
  cases i
  case add rs rt rd sh => exact ⟨false, _, rfl, answers_add (keeps_addTrap32 ..) rfl (addTrap32_ne _ _ rfl)⟩
  case addi rs rt imm => exact ⟨false, _, rfl, answers_add (keeps_addTrap32 ..) rfl (addTrap32_ne _ _ rfl)⟩
  case addu rs rt rd sh => exact ⟨false, _, rfl, answers_add (keeps_addWrap32 ..) rfl (ok_ne rfl)⟩
  case addiu rs rt imm => exact ⟨false, _, rfl, answers_add (keeps_addWrap32 ..) rfl (ok_ne rfl)⟩
  case dadd rs rt rd sh => exact ⟨false, _, rfl, answers_add (keeps_addTrap64 ..) rfl (addTrap64_ne _ rfl)⟩
  case daddi rs rt imm => exact ⟨false, _, rfl, answers_add (keeps_addTrap64 ..) rfl (addTrap64_ne _ rfl)⟩
  case daddu rs rt rd sh => exact ⟨false, _, rfl, answers_add (keeps_addWrap64 ..) rfl (ok_ne rfl)⟩
  case daddiu rs rt imm => exact ⟨false, _, rfl, answers_add (keeps_addWrap64 ..) rfl (ok_ne rfl)⟩
  case div rs rt rd sh =>
    exact ⟨s32 s.rf rt == 0, opDiv Config.w32Hi (Config.div0Hi s.draws) rs rt s.rf, rfl,
      answers_div (keeps_opDiv Config.w32Hi _ rs rt) rfl (ok_opDiv Config.w32Hi _ rs rt)⟩
  case divu rs rt rd sh =>
    exact ⟨u32 s.rf rt == 0, opDivu Config.w32Hi (Config.div0Hi s.draws) rs rt s.rf, rfl,
      answers_div (keeps_opDivu Config.w32Hi _ rs rt) rfl (ok_opDivu Config.w32Hi _ rs rt)⟩
  case ddiv rs rt rd sh =>
    exact ⟨s64 s.rf rt == 0, opDdiv (Config.div0Hi s.draws) rs rt s.rf, rfl,
      answers_div (keeps_opDdiv _ rs rt) rfl (ok_opDdiv _ rs rt)⟩
  case ddivu rs rt rd sh =>
    exact ⟨u64 s.rf rt == 0, opDdivu (Config.div0Hi s.draws) rs rt s.rf, rfl,
      answers_div (keeps_opDdivu _ rs rt) rfl (ok_opDdivu _ rs rt)⟩
  all_goals exact ⟨false, _, rfl, answers_unimplemented rfl rfl⟩

/-- No instruction touches a `decode_all` sequence (R39). -/
theorem exec_seqs {i : Instr} {s t : State} (h : exec i s = .next t) : t.seqs = s.seqs := by
  obtain ⟨b, r, he, -⟩ := exec_cases i s
  cases he.symm.trans h
  simp

/-! The reference driver's step, case by case (R277). -/

theorem fetch_done {s : State} (h : s.status = .done) : fetch s = .over (.next s) := by
  rw [fetch, h]

theorem fetch_halted {s : State} {o : Halt} (h : s.status = .halted o) : fetch s = .over (.next s) := by
  rw [fetch, h]

theorem fetch_end {s : State} (h : s.status = .running) (hk : s.k = s.words.length) :
    fetch s = .over (.next s.finish) := by
  rw [fetch, h]; simp only [hk, if_true]

theorem fetch_beyond {s : State} (h : s.status = .running) (hk : s.words.length < s.k) :
    fetch s = .over (.refused .indexOutOfRange) := by
  rw [fetch, h]
  simp only [if_neg (Nat.ne_of_gt hk), decodeAt_of_ge _ _ (Nat.le_of_lt hk)]

theorem fetch_unknown {s : State} (h : s.status = .running) (hk : s.k < s.words.length) {f : FieldName} {c : Nat}
    (hd : decode s.words[s.k] = .unknownEncoding f c) :
    fetch s = .over (.next (s.halt (.fault (.unknownEncoding f c)))) := by
  rw [fetch, h]
  simp only [if_neg (Nat.ne_of_lt hk), decodeAt_of_lt _ _ hk, hd]

theorem fetch_execute {s : State} (h : s.status = .running) (hk : s.k < s.words.length) {i : Instr}
    (hd : decode s.words[s.k] = .ok i) : fetch s = .execute i := by
  rw [fetch, h]
  simp only [if_neg (Nat.ne_of_lt hk), decodeAt_of_lt _ _ hk, hd]

theorem step_of_over {s : State} {o : Host.Outcome State Fault Refusal} (h : fetch s = .over o) : step s = o := by
  rw [step, h]

theorem step_of_execute {s : State} {i : Instr} (h : fetch s = .execute i) : step s = exec i s := by
  rw [step, h]

/-- Everything one step can do. -/
theorem step_cases (s : State) :
    (s.status ≠ .running ∧ step s = .next s) ∨
    (s.status = .running ∧ s.k = s.words.length ∧ step s = .next s.finish) ∨
    (s.status = .running ∧ s.words.length < s.k ∧ step s = .refused .indexOutOfRange) ∨
    (∃ hk : s.k < s.words.length, ∃ f c, s.status = .running ∧ decode s.words[s.k] = .unknownEncoding f c ∧
      step s = .next (s.halt (.fault (.unknownEncoding f c)))) ∨
    (∃ hk : s.k < s.words.length, ∃ i, s.status = .running ∧ decode s.words[s.k] = .ok i ∧ step s = exec i s) := by
  rcases hs : s.status with _ | _ | o
  · rcases Nat.lt_trichotomy s.k s.words.length with hk | hk | hk
    · rcases hd : decode s.words[s.k] with i | ⟨f, c⟩
      · exact .inr (.inr (.inr (.inr ⟨hk, i, rfl, hd, step_of_execute (fetch_execute hs hk hd)⟩)))
      · exact .inr (.inr (.inr (.inl ⟨hk, f, c, rfl, hd, step_of_over (fetch_unknown hs hk hd)⟩)))
    · exact .inr (.inl ⟨rfl, hk, step_of_over (fetch_end hs hk)⟩)
    · exact .inr (.inr (.inl ⟨rfl, hk, step_of_over (fetch_beyond hs hk)⟩))
  · exact .inl ⟨by simp, step_of_over (fetch_done hs)⟩
  · exact .inl ⟨by simp, step_of_over (fetch_halted hs)⟩

/-- No step touches a `decode_all` sequence (R39). -/
theorem step_seqs {s t : State} (h : step s = .next t) : t.seqs = s.seqs := by
  rcases step_cases s with ⟨-, hs⟩ | ⟨-, -, hs⟩ | ⟨-, -, hs⟩ | ⟨_, _, _, -, -, hs⟩ | ⟨_, i, -, -, hs⟩ <;>
    rw [hs] at h
  · cases h; rfl
  · cases h; rfl
  · cases h
  · cases h; rfl
  · exact exec_seqs h

end Sys2Proof.Machine
end

