-- ==== Sys2Proof/Laws/Formats.lean ====
section
/-! SUPPORT. What `decode` reads from a word by format: from the words the encoder writes (one lemma per format, so that a
case of `Instr` is one line), and from any word whose opcode is of a class (one lemma per arm of R69). -/

namespace Sys2Proof

/-! From the encoder's words. -/

theorem decode_encode_r (f : RFunc) {rs rt rd : Register} (sh : BitVec 5) (hs : rs.isGpr = true) (ht : rt.isGpr = true)
    (hd : rd.isGpr = true) : decode (Shape.r rs rt rd sh f).encode = .ok (f.instr rs rt rd sh) := by
  rw [Shape.encode_r, decode]
  simp [decodeR, Register.ofBits_toBits, hs, ht, hd]

theorem decode_encode_arith (f : Cop1Func) (m : ArithFmt) (ft fs fd : FPRegister) :
    decode (Shape.fr (.arith m) ft fs fd (.named f) none none).encode = .ok (f.instr m ft fs fd) := by
  rw [Shape.encode_fr, decode]
  simp [decodeFR, FrFunc.bits]

theorem decode_encode_move (m : Cop1Fmt) (ft fs fd : FPRegister) (fn : BitVec 6) :
    decode (Shape.fr m ft fs fd (.raw fn) none none).encode =
      decodeFR (sixFields Opcode.cop1.code m.code ft.toBits fs.toBits fd.toBits fn) := by
  rw [Shape.encode_fr, decode]
  simp [FrFunc.bits]

theorem decode_encode_j (op : JOpcode) (addr : BitVec 26) :
    decode (Shape.j op addr).encode = decodeJ op (twoFields op.code addr) := by
  rw [Shape.encode_j, decode]
  simp

theorem decode_encode_i (op : IOpcode) (rs rt : Register) (imm : BitVec 16) :
    decode (iShape op rs rt imm).encode = decodeI op (fourFields op.code rs.toBits rt.toBits imm) := by
  rw [iShape, Shape.encode_i, decode]
  simp

theorem decode_encode_regimm (c : RegimmCode) {rs : Register} (imm : BitVec 16) (hs : rs.isGpr = true) :
    decode (regimmShape c rs imm).encode = .ok (c.instr rs imm) := by
  rw [regimmShape, Shape.encode_i, decode]
  simp [decodeI, Register.ofBits_toBits, hs]

/-- The 16 bits of a BC1 offset are the fields `fs`, `fd` and `func` (R60). -/
theorem offset_fields (x : BitVec 16) : (x.extractLsb' 11 5 ++ x.extractLsb' 6 5 ++ x.extractLsb' 0 6 : BitVec 16) = x := by
  apply BitVec.eq_of_getLsbD_eq
  intro i hi
  have h1 : (x.extractLsb' 11 5 ++ x.extractLsb' 6 5 ++ x.extractLsb' 0 6 : BitVec 16).getLsbD i =
      if i < 6 then (x.extractLsb' 0 6).getLsbD i else (x.extractLsb' 11 5 ++ x.extractLsb' 6 5 : BitVec 10).getLsbD (i - 6) :=
    BitVec.getLsbD_append
  have h2 : (x.extractLsb' 11 5 ++ x.extractLsb' 6 5 : BitVec 10).getLsbD (i - 6) =
      if i - 6 < 5 then (x.extractLsb' 6 5).getLsbD (i - 6) else (x.extractLsb' 11 5).getLsbD (i - 6 - 5) :=
    BitVec.getLsbD_append
  rw [h1]
  split
  · simp [*]
  · rw [h2]
    split
    · have h3 : 6 + (i - 6) = i := by omega
      simp [*]
    · have h3 : 11 + (i - 6 - 5) = i := by omega
      have h4 : i - 6 - 5 < 5 := by omega
      simp [h3, h4]

/-- The low 16 bits of a four-field word, read as three fields. -/
theorem sixFields_offset (op : BitVec 6) (a b : BitVec 5) (x : BitVec 16) :
    sixFields op a b (x.extractLsb' 11 5) (x.extractLsb' 6 5) (x.extractLsb' 0 6) = fourFields op a b x := by
  have hlow : ∀ lo len, lo + len ≤ 16 → field (fourFields op a b x) lo len = x.extractLsb' lo len := by
    intro lo len h
    have hx := field_four_imm op a b x
    ext i hi
    have := congrArg (fun y : BitVec 16 => y.getLsbD (lo + i)) hx
    have h16 : lo + i < 16 := by omega
    simpa [field, h16, hi] using this
  have h := sixFields_eta (fourFields op a b x)
  rwa [field_four_op, field_four_a, field_four_b, hlow 11 5 (by decide), hlow 6 5 (by decide), hlow 0 6 (by decide)] at h

theorem decode_encode_bc (nd tf : Bool) (cc : BitVec 3) (off : BitVec 16) :
    decode (bcShape nd tf cc off).encode = .ok (bc1Instr nd tf cc off) := by
  have hw : (bcShape nd tf cc off).encode =
      fourFields Opcode.cop1.code Cop1Fmt.bc.code (cc ++ BitVec.ofBool nd ++ BitVec.ofBool tf) off := by
    rw [bcShape, Shape.encode_fr, FPRegister.toBits_ofBits, FPRegister.toBits_ofBits, FPRegister.toBits_ofBits]
    exact sixFields_offset _ _ _ off
  have hb : ∀ (b : BitVec 5) (n : Nat), n < 5 → (fourFields Opcode.cop1.code Cop1Fmt.bc.code b off).getLsbD (16 + n) = b.getLsbD n := by
    intro b n hn
    have := congrArg (fun x : BitVec 5 => x.getLsbD n) (field_four_b Opcode.cop1.code Cop1Fmt.bc.code b off)
    simpa [field, hn] using this
  have h18 : ∀ b : BitVec 5, field (fourFields Opcode.cop1.code Cop1Fmt.bc.code b off) 18 3 = b.extractLsb' 2 3 := by
    intro b
    ext i hi
    have := hb b (2 + i) (by omega)
    rw [show 16 + (2 + i) = 18 + i by omega] at this
    simpa [field, hi] using this
  have hcc : ∀ cc : BitVec 3, (cc ++ BitVec.ofBool nd ++ BitVec.ofBool tf : BitVec 5).getLsbD 1 = nd ∧
      (cc ++ BitVec.ofBool nd ++ BitVec.ofBool tf : BitVec 5).getLsbD 0 = tf ∧
      (cc ++ BitVec.ofBool nd ++ BitVec.ofBool tf : BitVec 5).extractLsb' 2 3 = cc := by
    cases nd <;> cases tf <;> decide
  obtain ⟨h1, h0, h2⟩ := hcc cc
  have hs : ∀ w : Word, Opcode.lookup (field w 26 6) = some .cop1 → Cop1Fmt.lookup (field w 21 5) = some .bc →
      decode w = .ok (bc1Instr (w.getLsbD 17) (w.getLsbD 16) (field w 18 3) (field w 0 16)) := by
    intro w ho hm
    simp only [decode, ho, decodeFR, hm]
  rw [hw, hs _ (by simp) (by simp), hb _ 1 (by decide), hb _ 0 (by decide), h18, h1, h0, h2, field_four_imm]

/-! From any word: the arm its opcode selects (R62, R69). -/

theorem decode_special {w : Word} (h : Opcode.lookup (field w 26 6) = some .special) : decode w = decodeR w := by
  simp only [decode, h]

theorem decode_cop1 {w : Word} (h : Opcode.lookup (field w 26 6) = some .cop1) : decode w = decodeFR w := by
  simp only [decode, h]

theorem decode_j {w : Word} {op : JOpcode} (h : Opcode.lookup (field w 26 6) = some (.j op)) : decode w = decodeJ op w := by
  simp only [decode, h]

theorem decode_i {w : Word} {op : IOpcode} (h : Opcode.lookup (field w 26 6) = some (.i op)) : decode w = decodeI op w := by
  simp only [decode, h]

theorem decode_none {w : Word} (h : Opcode.lookup (field w 26 6) = none) :
    decode w = .unknownEncoding .opcode (field w 26 6).toNat := by
  simp only [decode, h]

theorem decodeR_some {w : Word} {f : RFunc} (h : RFunc.lookup (field w 0 6) = some f) :
    decodeR w = .ok (f.instr (.ofBits (field w 21 5)) (.ofBits (field w 16 5)) (.ofBits (field w 11 5)) (field w 6 5)) := by
  simp only [decodeR, h]

theorem decodeR_none {w : Word} (h : RFunc.lookup (field w 0 6) = none) :
    decodeR w = .unknownEncoding .func (field w 0 6).toNat := by
  simp only [decodeR, h]

theorem decodeFR_none {w : Word} (h : Cop1Fmt.lookup (field w 21 5) = none) :
    decodeFR w = .unknownEncoding .fmt (field w 21 5).toNat := by
  simp only [decodeFR, h]

theorem decodeFR_arith {w : Word} {m : ArithFmt} {f : Cop1Func} (h : Cop1Fmt.lookup (field w 21 5) = some (.arith m))
    (hf : Cop1Func.lookup (field w 0 6) = some f) :
    decodeFR w = .ok (f.instr m (.ofBits (field w 16 5)) (.ofBits (field w 11 5)) (.ofBits (field w 6 5))) := by
  simp only [decodeFR, h, hf]

theorem decodeFR_arith_none {w : Word} {m : ArithFmt} (h : Cop1Fmt.lookup (field w 21 5) = some (.arith m))
    (hf : Cop1Func.lookup (field w 0 6) = none) :
    decodeFR w = .unknownEncoding .cop1Func (field w 0 6).toNat := by
  simp only [decodeFR, h, hf]

theorem decodeFR_bc {w : Word} (h : Cop1Fmt.lookup (field w 21 5) = some .bc) :
    decodeFR w = .ok (bc1Instr (w.getLsbD 17) (w.getLsbD 16) (field w 18 3) (field w 0 16)) := by
  simp only [decodeFR, h]

/-- A move-format word always decodes, to a shape with the raw function bits (R60). -/
theorem decodeFR_move {w : Word} {m : Cop1Fmt} (h : Cop1Fmt.lookup (field w 21 5) = some m) (ha : ∀ a, m ≠ .arith a)
    (hb : m ≠ .bc) :
    ∃ i, decodeFR w = .ok i ∧ i.shape = .fr m (.ofBits (field w 16 5)) (.ofBits (field w 11 5)) (.ofBits (field w 6 5))
      (.raw (field w 0 6)) none none := by
  cases m with
  | arith a => exact absurd rfl (ha a)
  | bc => exact absurd rfl hb
  | _ => simp only [decodeFR, h]; exact ⟨_, rfl, rfl⟩

theorem decodeI_regimm {w : Word} {c : RegimmCode} (h : RegimmCode.lookup (field w 16 5) = some c) :
    decodeI .regimm w = .ok (c.instr (.ofBits (field w 21 5)) (field w 0 16)) := by
  simp only [decodeI, h]

theorem decodeI_regimm_none {w : Word} (h : RegimmCode.lookup (field w 16 5) = none) :
    decodeI .regimm w = .unknownEncoding .regimm (field w 16 5).toNat := by
  simp only [decodeI, h]

/-- An I-class word other than REGIMM always decodes, to the shape of its opcode (R201). -/
theorem decodeI_plain {op : IOpcode} (h : op ≠ .regimm) (w : Word) :
    ∃ i, decodeI op w = .ok i ∧ i.shape = iShape op (.ofBits (field w 21 5)) (.ofBits (field w 16 5)) (field w 0 16) := by
  cases op with
  | regimm => exact absurd rfl h
  | _ => exact ⟨_, rfl, rfl⟩

/-! A word is its fields, in the other two layouts, and bits 20:16 of a BC1 word are bits 20:18, `nd` and `tf` (R53). -/

theorem fourFields_eta (w : Word) : fourFields (field w 26 6) (field w 21 5) (field w 16 5) (field w 0 16) = w := by
  have h : ∀ lo len, lo + len ≤ 16 → (field w 0 16).extractLsb' lo len = field w lo len := by
    intro lo len hl
    ext i hi
    have h16 : lo + i < 16 := by omega
    simp [field, h16]
  rw [← sixFields_offset, h _ _ (by decide), h _ _ (by decide), h _ _ (by decide)]
  exact sixFields_eta w

theorem twoFields_eta (w : Word) : twoFields (field w 26 6) (field w 0 26) = w := by
  apply BitVec.eq_of_getLsbD_eq
  intro i hi
  have h : (twoFields (field w 26 6) (field w 0 26)).getLsbD i =
      if i < 26 then (field w 0 26).getLsbD i else (field w 26 6).getLsbD (i - 26) := BitVec.getLsbD_append
  rw [h]
  split
  · simp [field, *]
  · have h1 : 26 + (i - 26) = i := by omega
    have h2 : i - 26 < 6 := by omega
    simp [field, h1, h2]

theorem field_cond (w : Word) :
    (field w 18 3 ++ BitVec.ofBool (w.getLsbD 17) ++ BitVec.ofBool (w.getLsbD 16) : BitVec 5) = field w 16 5 := by
  apply BitVec.eq_of_getLsbD_eq
  intro i hi
  have h1 : (field w 18 3 ++ BitVec.ofBool (w.getLsbD 17) ++ BitVec.ofBool (w.getLsbD 16) : BitVec 5).getLsbD i =
      if i < 1 then (BitVec.ofBool (w.getLsbD 16)).getLsbD i
      else (field w 18 3 ++ BitVec.ofBool (w.getLsbD 17) : BitVec 4).getLsbD (i - 1) := BitVec.getLsbD_append
  have h2 : (field w 18 3 ++ BitVec.ofBool (w.getLsbD 17) : BitVec 4).getLsbD (i - 1) =
      if i - 1 < 1 then (BitVec.ofBool (w.getLsbD 17)).getLsbD (i - 1) else (field w 18 3).getLsbD (i - 1 - 1) :=
    BitVec.getLsbD_append
  rw [h1, h2]
  interval_cases i <;> simp [field]

/-! The shapes of the instructions a format's arm builds. -/

@[simp] theorem RFunc.shape_instr (f : RFunc) (rs rt rd : Register) (sh : BitVec 5) :
    (f.instr rs rt rd sh).shape = .r rs rt rd sh f := by cases f <;> rfl

@[simp] theorem Cop1Func.shape_instr (f : Cop1Func) (m : ArithFmt) (ft fs fd : FPRegister) :
    (f.instr m ft fs fd).shape = .fr (.arith m) ft fs fd (.named f) none none := by cases f <;> rfl

@[simp] theorem RegimmCode.shape_instr (c : RegimmCode) (rs : Register) (imm : BitVec 16) :
    (c.instr rs imm).shape = regimmShape c rs imm := by cases c <;> rfl

@[simp] theorem shape_bc1Instr (nd tf : Bool) (cc : BitVec 3) (off : BitVec 16) :
    (bc1Instr nd tf cc off).shape = bcShape nd tf cc off := by cases nd <;> cases tf <;> rfl

/-- Everything `decode` can answer for a word, arm by arm of R69, with the shape of the instruction. -/
inductive DecodeView (w : Word) : DecodeResult → Prop where
  | opcode (ho : Opcode.lookup (field w 26 6) = none) : DecodeView w (.unknownEncoding .opcode (field w 26 6).toNat)
  | func (ho : Opcode.lookup (field w 26 6) = some .special) (hf : RFunc.lookup (field w 0 6) = none) :
      DecodeView w (.unknownEncoding .func (field w 0 6).toNat)
  | r (f : RFunc) (i : Instr) (ho : Opcode.lookup (field w 26 6) = some .special)
      (hf : RFunc.lookup (field w 0 6) = some f)
      (hi : i.shape = .r (.ofBits (field w 21 5)) (.ofBits (field w 16 5)) (.ofBits (field w 11 5)) (field w 6 5) f) :
      DecodeView w (.ok i)
  | fmt (ho : Opcode.lookup (field w 26 6) = some .cop1) (hm : Cop1Fmt.lookup (field w 21 5) = none) :
      DecodeView w (.unknownEncoding .fmt (field w 21 5).toNat)
  | cop1Func (a : ArithFmt) (ho : Opcode.lookup (field w 26 6) = some .cop1)
      (hm : Cop1Fmt.lookup (field w 21 5) = some (.arith a)) (hf : Cop1Func.lookup (field w 0 6) = none) :
      DecodeView w (.unknownEncoding .cop1Func (field w 0 6).toNat)
  | fr (m : Cop1Fmt) (fn : FrFunc) (nd tf : Option Bool) (i : Instr) (ho : Opcode.lookup (field w 26 6) = some .cop1)
      (hm : Cop1Fmt.lookup (field w 21 5) = some m)
      (hi : i.shape = .fr m (.ofBits (field w 16 5)) (.ofBits (field w 11 5)) (.ofBits (field w 6 5)) fn nd tf) :
      DecodeView w (.ok i)
  | j (op : JOpcode) (i : Instr) (ho : Opcode.lookup (field w 26 6) = some (.j op))
      (hi : i.shape = .j op (field w 0 26)) : DecodeView w (.ok i)
  | regimm (ho : Opcode.lookup (field w 26 6) = some (.i .regimm)) (hc : RegimmCode.lookup (field w 16 5) = none) :
      DecodeView w (.unknownEncoding .regimm (field w 16 5).toNat)
  | i (op : IOpcode) (c : Option RegimmCode) (i : Instr) (ho : Opcode.lookup (field w 26 6) = some (.i op))
      (hi : i.shape = .i op (.ofBits (field w 21 5)) (.ofBits (field w 16 5)) (immSigned (field w 0 16))
        (immUnsigned (field w 0 16)) c) : DecodeView w (.ok i)

/-- The 16 bits of a BC1 word's offset, read as three fields of the word. -/
theorem field_low (w : Word) (lo len : Nat) (h : lo + len ≤ 16) : (field w 0 16).extractLsb' lo len = field w lo len := by
  ext i hi
  have h16 : lo + i < 16 := by omega
  simp [field, h16]

theorem decodeView (w : Word) : DecodeView w (decode w) := by
  rcases ho : Opcode.lookup (field w 26 6) with _ | o
  · rw [decode_none ho]; exact .opcode ho
  cases o with
  | special =>
    rw [decode_special ho]
    rcases hf : RFunc.lookup (field w 0 6) with _ | f
    · rw [decodeR_none hf]; exact .func ho hf
    · rw [decodeR_some hf]; exact .r f _ ho hf (RFunc.shape_instr ..)
  | cop1 =>
    rw [decode_cop1 ho]
    rcases hm : Cop1Fmt.lookup (field w 21 5) with _ | m
    · rw [decodeFR_none hm]; exact .fmt ho hm
    cases m with
    | arith a =>
      rcases hf : Cop1Func.lookup (field w 0 6) with _ | f
      · rw [decodeFR_arith_none hm hf]; exact .cop1Func a ho hm hf
      · rw [decodeFR_arith hm hf]; exact .fr _ _ _ _ _ ho hm (Cop1Func.shape_instr ..)
    | bc =>
      rw [decodeFR_bc hm]
      refine .fr .bc (.raw (field w 0 6)) (some (w.getLsbD 17)) (some (w.getLsbD 16)) _ ho hm ?_
      rw [shape_bc1Instr, bcShape, field_cond, field_low _ _ _ (by decide), field_low _ _ _ (by decide),
        field_low _ _ _ (by decide)]
    | _ =>
      obtain ⟨i, h1, h2⟩ := decodeFR_move hm (by simp) (by simp)
      rw [h1]; exact .fr _ _ _ _ i ho hm h2
  | j op => rw [decode_j ho]; cases op <;> exact .j _ _ ho rfl
  | i op =>
    rw [decode_i ho]
    by_cases hr : op = .regimm
    · subst hr
      rcases hc : RegimmCode.lookup (field w 16 5) with _ | c
      · rw [decodeI_regimm_none hc]; exact .regimm ho hc
      · rw [decodeI_regimm hc]
        refine .i _ (some c) _ ho ?_
        rw [RegimmCode.shape_instr, regimmShape, RegimmCode.code_of_lookup _ _ hc]
    · obtain ⟨i, h1, h2⟩ := decodeI_plain hr w
      rw [h1]; exact .i op none i ho h2

/-- An instruction of R shape is the one its function and fields build. -/
theorem eq_instr_of_shape_r {i : Instr} {rs rt rd : Register} {sh : BitVec 5} {f : RFunc} (h : i.shape = .r rs rt rd sh f) :
    i = f.instr rs rt rd sh := by
  cases i <;> cases h <;> rfl

end Sys2Proof
end

