-- ==== Sys2Proof/Laws/PerInstr.lean ====
section
/-! SUPPORT. The per-instruction family `OpcodeRow`: the word of an instruction has the fixed bits of its row of
spec/opcode_table.json (the row's mask and match), whatever its fields hold. -/

namespace Sys2Proof.Laws

section Masks
variable (op fn : BitVec 6) (a b c d : BitVec 5) (addr : BitVec 26) (imm : BitVec 16)

theorem and_six (op' fn' : BitVec 6) (a' b' c' d' : BitVec 5) :
    sixFields op a b c d fn &&& sixFields op' a' b' c' d' fn' =
      sixFields (op &&& op') (a &&& a') (b &&& b') (c &&& c') (d &&& d') (fn &&& fn') := by
  unfold sixFields
  rw [← BitVec.and_append, ← BitVec.and_append, ← BitVec.and_append, ← BitVec.and_append, ← BitVec.and_append]

theorem and_two (op' : BitVec 6) (addr' : BitVec 26) :
    twoFields op addr &&& twoFields op' addr' = twoFields (op &&& op') (addr &&& addr') := by
  unfold twoFields
  rw [← BitVec.and_append]

theorem and_four (op' : BitVec 6) (a' b' : BitVec 5) (imm' : BitVec 16) :
    fourFields op a b imm &&& fourFields op' a' b' imm' =
      fourFields (op &&& op') (a &&& a') (b &&& b') (imm &&& imm') := by
  unfold fourFields
  rw [← BitVec.and_append, ← BitVec.and_append, ← BitVec.and_append]

/-- The mask of an R-format or arithmetic COP1 row: opcode and function. -/
theorem mask_op_fn : sixFields op a b c d fn &&& 0xFC00003F#32 = sixFields op 0 0 0 0 fn := by
  have h : (0xFC00003F#32) = sixFields (BitVec.allOnes 6) 0 0 0 0 (BitVec.allOnes 6) := by decide
  rw [h, and_six]
  simp [-BitVec.reduceAllOnes]

/-- The mask of a COP1 move row: opcode and format. -/
theorem mask_op_fmt : sixFields op a b c d fn &&& 0xFFE00000#32 = sixFields op a 0 0 0 0 := by
  have h : (0xFFE00000#32) = sixFields (BitVec.allOnes 6) (BitVec.allOnes 5) 0 0 0 0 := by decide
  rw [h, and_six]
  simp [-BitVec.reduceAllOnes]

/-- The mask of a BC1 row: opcode, format, `nd` and `tf`. -/
theorem mask_op_fmt_cond : sixFields op a b c d fn &&& 0xFFE30000#32 = sixFields op a (b &&& 3) 0 0 0 := by
  have h : (0xFFE30000#32) = sixFields (BitVec.allOnes 6) (BitVec.allOnes 5) 3 0 0 0 := by decide
  rw [h, and_six]
  simp [-BitVec.reduceAllOnes]

/-- The mask of a J-format row: the opcode. -/
theorem mask_op_j : twoFields op addr &&& 0xFC000000#32 = twoFields op 0 := by
  have h : (0xFC000000#32) = twoFields (BitVec.allOnes 6) 0 := by decide
  rw [h, and_two]
  simp [-BitVec.reduceAllOnes]

/-- The mask of an I-format row: the opcode. -/
theorem mask_op_i : fourFields op a b imm &&& 0xFC000000#32 = fourFields op 0 0 0 := by
  have h : (0xFC000000#32) = fourFields (BitVec.allOnes 6) 0 0 0 := by decide
  rw [h, and_four]
  simp [-BitVec.reduceAllOnes]

/-- The mask of a REGIMM row: the opcode and the code. -/
theorem mask_op_code : fourFields op a b imm &&& 0xFC1F0000#32 = fourFields op 0 b 0 := by
  have h : (0xFC1F0000#32) = fourFields (BitVec.allOnes 6) 0 (BitVec.allOnes 5) 0 := by decide
  rw [h, and_four]
  simp [-BitVec.reduceAllOnes]

end Masks

section Formats
variable (rs rt rd : Register) (shamt : BitVec 5) (ft fs fd : FPRegister) (fn : BitVec 6) (imm : BitVec 16)

theorem masked_r (f : RFunc) :
    (Shape.r rs rt rd shamt f).encode &&& 0xFC00003F#32 = sixFields 0 0 0 0 0 f.code :=
  (congrArg (· &&& _) (Shape.encode_r rs rt rd shamt f)).trans (mask_op_fn ..)

theorem masked_arith (m : ArithFmt) (f : Cop1Func) (nd tf : Option Bool) :
    (Shape.fr (.arith m) ft fs fd (.named f) nd tf).encode &&& 0xFC00003F#32 = sixFields 0x11 0 0 0 0 f.code :=
  (congrArg (· &&& _) (Shape.encode_fr ..)).trans (mask_op_fn ..)

theorem masked_move (m : Cop1Fmt) (f : FrFunc) (nd tf : Option Bool) :
    (Shape.fr m ft fs fd f nd tf).encode &&& 0xFFE00000#32 = sixFields 0x11 m.code 0 0 0 0 :=
  (congrArg (· &&& _) (Shape.encode_fr ..)).trans (mask_op_fmt ..)

theorem masked_bc (nd tf : Bool) (cc : BitVec 3) (offset : BitVec 16) :
    (bcShape nd tf cc offset).encode &&& 0xFFE30000#32 =
      sixFields 0x11 8 (0#3 ++ BitVec.ofBool nd ++ BitVec.ofBool tf) 0 0 0 := by
  have h : ∀ cc : BitVec 3, (cc ++ BitVec.ofBool nd ++ BitVec.ofBool tf : BitVec 5) &&& 3 =
      (0#3 ++ BitVec.ofBool nd ++ BitVec.ofBool tf) := by cases nd <;> cases tf <;> decide
  rw [bcShape, Shape.encode_fr, mask_op_fmt_cond, FPRegister.toBits_ofBits, h]
  rfl

theorem masked_j (op : JOpcode) (addr : BitVec 26) :
    (Shape.j op addr).encode &&& 0xFC000000#32 = twoFields op.code 0 :=
  (congrArg (· &&& _) (Shape.encode_j op addr)).trans (mask_op_j ..)

theorem masked_i (op : IOpcode) :
    (iShape op rs rt imm).encode &&& 0xFC000000#32 = fourFields op.code 0 0 0 :=
  (congrArg (· &&& _) (Shape.encode_i op rs rt imm none)).trans (mask_op_i ..)

theorem masked_regimm (c : RegimmCode) :
    (regimmShape c rs imm).encode &&& 0xFC1F0000#32 = fourFields 1 0 c.code 0 := by
  have h := mask_op_code IOpcode.regimm.code rs.toBits (Register.ofBits c.code).toBits imm
  rw [Register.toBits_ofBits] at h
  exact (congrArg (· &&& _) (Shape.encode_i .regimm rs (.ofBits c.code) imm (some c))).trans
    ((by rw [Register.toBits_ofBits] : _ = _).trans h)

end Formats

namespace OpcodeRow

/-- The mask and the match of each row of spec/opcode_table.json. -/
def row : Instr → Word × Word
  | .sll _ _ _ _ => (0xFC00003F#32, 0x00000000#32)
  | .srl _ _ _ _ => (0xFC00003F#32, 0x00000002#32)
  | .sra _ _ _ _ => (0xFC00003F#32, 0x00000003#32)
  | .sllv _ _ _ _ => (0xFC00003F#32, 0x00000004#32)
  | .srlv _ _ _ _ => (0xFC00003F#32, 0x00000006#32)
  | .srav _ _ _ _ => (0xFC00003F#32, 0x00000007#32)
  | .jr _ _ _ _ => (0xFC00003F#32, 0x00000008#32)
  | .jalr _ _ _ _ => (0xFC00003F#32, 0x00000009#32)
  | .syscall _ _ _ _ => (0xFC00003F#32, 0x0000000C#32)
  | .break_ _ _ _ _ => (0xFC00003F#32, 0x0000000D#32)
  | .sync _ _ _ _ => (0xFC00003F#32, 0x0000000F#32)
  | .mfhi _ _ _ _ => (0xFC00003F#32, 0x00000010#32)
  | .mthi _ _ _ _ => (0xFC00003F#32, 0x00000011#32)
  | .mflo _ _ _ _ => (0xFC00003F#32, 0x00000012#32)
  | .mtlo _ _ _ _ => (0xFC00003F#32, 0x00000013#32)
  | .dsllv _ _ _ _ => (0xFC00003F#32, 0x00000014#32)
  | .dsrlv _ _ _ _ => (0xFC00003F#32, 0x00000016#32)
  | .dsrav _ _ _ _ => (0xFC00003F#32, 0x00000017#32)
  | .mult _ _ _ _ => (0xFC00003F#32, 0x00000018#32)
  | .multu _ _ _ _ => (0xFC00003F#32, 0x00000019#32)
  | .div _ _ _ _ => (0xFC00003F#32, 0x0000001A#32)
  | .divu _ _ _ _ => (0xFC00003F#32, 0x0000001B#32)
  | .dmult _ _ _ _ => (0xFC00003F#32, 0x0000001C#32)
  | .dmultu _ _ _ _ => (0xFC00003F#32, 0x0000001D#32)
  | .ddiv _ _ _ _ => (0xFC00003F#32, 0x0000001E#32)
  | .ddivu _ _ _ _ => (0xFC00003F#32, 0x0000001F#32)
  | .add _ _ _ _ => (0xFC00003F#32, 0x00000020#32)
  | .addu _ _ _ _ => (0xFC00003F#32, 0x00000021#32)
  | .sub _ _ _ _ => (0xFC00003F#32, 0x00000022#32)
  | .subu _ _ _ _ => (0xFC00003F#32, 0x00000023#32)
  | .and _ _ _ _ => (0xFC00003F#32, 0x00000024#32)
  | .or _ _ _ _ => (0xFC00003F#32, 0x00000025#32)
  | .xor _ _ _ _ => (0xFC00003F#32, 0x00000026#32)
  | .nor _ _ _ _ => (0xFC00003F#32, 0x00000027#32)
  | .slt _ _ _ _ => (0xFC00003F#32, 0x0000002A#32)
  | .sltu _ _ _ _ => (0xFC00003F#32, 0x0000002B#32)
  | .dadd _ _ _ _ => (0xFC00003F#32, 0x0000002C#32)
  | .daddu _ _ _ _ => (0xFC00003F#32, 0x0000002D#32)
  | .dsub _ _ _ _ => (0xFC00003F#32, 0x0000002E#32)
  | .dsubu _ _ _ _ => (0xFC00003F#32, 0x0000002F#32)
  | .tge _ _ _ _ => (0xFC00003F#32, 0x00000030#32)
  | .tgeu _ _ _ _ => (0xFC00003F#32, 0x00000031#32)
  | .tlt _ _ _ _ => (0xFC00003F#32, 0x00000032#32)
  | .tltu _ _ _ _ => (0xFC00003F#32, 0x00000033#32)
  | .teq _ _ _ _ => (0xFC00003F#32, 0x00000034#32)
  | .tne _ _ _ _ => (0xFC00003F#32, 0x00000036#32)
  | .dsll _ _ _ _ => (0xFC00003F#32, 0x00000038#32)
  | .dsrl _ _ _ _ => (0xFC00003F#32, 0x0000003A#32)
  | .dsra _ _ _ _ => (0xFC00003F#32, 0x0000003B#32)
  | .dsll32 _ _ _ _ => (0xFC00003F#32, 0x0000003C#32)
  | .dsrl32 _ _ _ _ => (0xFC00003F#32, 0x0000003E#32)
  | .dsra32 _ _ _ _ => (0xFC00003F#32, 0x0000003F#32)
  | .mfc1 _ _ _ _ => (0xFFE00000#32, 0x44000000#32)
  | .dmfc1 _ _ _ _ => (0xFFE00000#32, 0x44200000#32)
  | .cfc1 _ _ _ _ => (0xFFE00000#32, 0x44400000#32)
  | .mtc1 _ _ _ _ => (0xFFE00000#32, 0x44800000#32)
  | .dmtc1 _ _ _ _ => (0xFFE00000#32, 0x44A00000#32)
  | .ctc1 _ _ _ _ => (0xFFE00000#32, 0x44C00000#32)
  | .bc1f _ _ => (0xFFE30000#32, 0x45000000#32)
  | .bc1t _ _ => (0xFFE30000#32, 0x45010000#32)
  | .bc1fl _ _ => (0xFFE30000#32, 0x45020000#32)
  | .bc1tl _ _ => (0xFFE30000#32, 0x45030000#32)
  | .addFmt _ _ _ _ => (0xFC00003F#32, 0x44000000#32)
  | .subFmt _ _ _ _ => (0xFC00003F#32, 0x44000001#32)
  | .mulFmt _ _ _ _ => (0xFC00003F#32, 0x44000002#32)
  | .divFmt _ _ _ _ => (0xFC00003F#32, 0x44000003#32)
  | .sqrtFmt _ _ _ _ => (0xFC00003F#32, 0x44000004#32)
  | .absFmt _ _ _ _ => (0xFC00003F#32, 0x44000005#32)
  | .movFmt _ _ _ _ => (0xFC00003F#32, 0x44000006#32)
  | .negFmt _ _ _ _ => (0xFC00003F#32, 0x44000007#32)
  | .roundLFmt _ _ _ _ => (0xFC00003F#32, 0x44000008#32)
  | .truncLFmt _ _ _ _ => (0xFC00003F#32, 0x44000009#32)
  | .ceilLFmt _ _ _ _ => (0xFC00003F#32, 0x4400000A#32)
  | .floorLFmt _ _ _ _ => (0xFC00003F#32, 0x4400000B#32)
  | .roundWFmt _ _ _ _ => (0xFC00003F#32, 0x4400000C#32)
  | .truncWFmt _ _ _ _ => (0xFC00003F#32, 0x4400000D#32)
  | .ceilWFmt _ _ _ _ => (0xFC00003F#32, 0x4400000E#32)
  | .floorWFmt _ _ _ _ => (0xFC00003F#32, 0x4400000F#32)
  | .cvtSFmt _ _ _ _ => (0xFC00003F#32, 0x44000020#32)
  | .cvtDFmt _ _ _ _ => (0xFC00003F#32, 0x44000021#32)
  | .cvtWFmt _ _ _ _ => (0xFC00003F#32, 0x44000024#32)
  | .cvtLFmt _ _ _ _ => (0xFC00003F#32, 0x44000025#32)
  | .cFFmt _ _ _ _ => (0xFC00003F#32, 0x44000030#32)
  | .cUnFmt _ _ _ _ => (0xFC00003F#32, 0x44000031#32)
  | .cEqFmt _ _ _ _ => (0xFC00003F#32, 0x44000032#32)
  | .cUeqFmt _ _ _ _ => (0xFC00003F#32, 0x44000033#32)
  | .cOltFmt _ _ _ _ => (0xFC00003F#32, 0x44000034#32)
  | .cUltFmt _ _ _ _ => (0xFC00003F#32, 0x44000035#32)
  | .cOleFmt _ _ _ _ => (0xFC00003F#32, 0x44000036#32)
  | .cUleFmt _ _ _ _ => (0xFC00003F#32, 0x44000037#32)
  | .cSfFmt _ _ _ _ => (0xFC00003F#32, 0x44000038#32)
  | .cNgleFmt _ _ _ _ => (0xFC00003F#32, 0x44000039#32)
  | .cSeqFmt _ _ _ _ => (0xFC00003F#32, 0x4400003A#32)
  | .cNglFmt _ _ _ _ => (0xFC00003F#32, 0x4400003B#32)
  | .cLtFmt _ _ _ _ => (0xFC00003F#32, 0x4400003C#32)
  | .cNgeFmt _ _ _ _ => (0xFC00003F#32, 0x4400003D#32)
  | .cLeFmt _ _ _ _ => (0xFC00003F#32, 0x4400003E#32)
  | .cNgtFmt _ _ _ _ => (0xFC00003F#32, 0x4400003F#32)
  | .j _ => (0xFC000000#32, 0x08000000#32)
  | .jal _ => (0xFC000000#32, 0x0C000000#32)
  | .beq _ _ _ => (0xFC000000#32, 0x10000000#32)
  | .bne _ _ _ => (0xFC000000#32, 0x14000000#32)
  | .blez _ _ _ => (0xFC000000#32, 0x18000000#32)
  | .bgtz _ _ _ => (0xFC000000#32, 0x1C000000#32)
  | .addi _ _ _ => (0xFC000000#32, 0x20000000#32)
  | .addiu _ _ _ => (0xFC000000#32, 0x24000000#32)
  | .slti _ _ _ => (0xFC000000#32, 0x28000000#32)
  | .sltiu _ _ _ => (0xFC000000#32, 0x2C000000#32)
  | .andi _ _ _ => (0xFC000000#32, 0x30000000#32)
  | .ori _ _ _ => (0xFC000000#32, 0x34000000#32)
  | .xori _ _ _ => (0xFC000000#32, 0x38000000#32)
  | .lui _ _ _ => (0xFC000000#32, 0x3C000000#32)
  | .beql _ _ _ => (0xFC000000#32, 0x50000000#32)
  | .bnel _ _ _ => (0xFC000000#32, 0x54000000#32)
  | .blezl _ _ _ => (0xFC000000#32, 0x58000000#32)
  | .bgtzl _ _ _ => (0xFC000000#32, 0x5C000000#32)
  | .daddi _ _ _ => (0xFC000000#32, 0x60000000#32)
  | .daddiu _ _ _ => (0xFC000000#32, 0x64000000#32)
  | .ldl _ _ _ => (0xFC000000#32, 0x68000000#32)
  | .ldr _ _ _ => (0xFC000000#32, 0x6C000000#32)
  | .lb _ _ _ => (0xFC000000#32, 0x80000000#32)
  | .lh _ _ _ => (0xFC000000#32, 0x84000000#32)
  | .lwl _ _ _ => (0xFC000000#32, 0x88000000#32)
  | .lw _ _ _ => (0xFC000000#32, 0x8C000000#32)
  | .lbu _ _ _ => (0xFC000000#32, 0x90000000#32)
  | .lhu _ _ _ => (0xFC000000#32, 0x94000000#32)
  | .lwr _ _ _ => (0xFC000000#32, 0x98000000#32)
  | .lwu _ _ _ => (0xFC000000#32, 0x9C000000#32)
  | .sb _ _ _ => (0xFC000000#32, 0xA0000000#32)
  | .sh _ _ _ => (0xFC000000#32, 0xA4000000#32)
  | .swl _ _ _ => (0xFC000000#32, 0xA8000000#32)
  | .sw _ _ _ => (0xFC000000#32, 0xAC000000#32)
  | .sdl _ _ _ => (0xFC000000#32, 0xB0000000#32)
  | .sdr _ _ _ => (0xFC000000#32, 0xB4000000#32)
  | .swr _ _ _ => (0xFC000000#32, 0xB8000000#32)
  | .ll _ _ _ => (0xFC000000#32, 0xC0000000#32)
  | .lwc1 _ _ _ => (0xFC000000#32, 0xC4000000#32)
  | .lld _ _ _ => (0xFC000000#32, 0xD0000000#32)
  | .ldc1 _ _ _ => (0xFC000000#32, 0xD4000000#32)
  | .ld _ _ _ => (0xFC000000#32, 0xDC000000#32)
  | .sc _ _ _ => (0xFC000000#32, 0xE0000000#32)
  | .swc1 _ _ _ => (0xFC000000#32, 0xE4000000#32)
  | .scd _ _ _ => (0xFC000000#32, 0xF0000000#32)
  | .sdc1 _ _ _ => (0xFC000000#32, 0xF4000000#32)
  | .sd _ _ _ => (0xFC000000#32, 0xFC000000#32)
  | .bltz _ _ => (0xFC1F0000#32, 0x04000000#32)
  | .bgez _ _ => (0xFC1F0000#32, 0x04010000#32)
  | .bltzl _ _ => (0xFC1F0000#32, 0x04020000#32)
  | .bgezl _ _ => (0xFC1F0000#32, 0x04030000#32)
  | .tgei _ _ => (0xFC1F0000#32, 0x04080000#32)
  | .tgeiu _ _ => (0xFC1F0000#32, 0x04090000#32)
  | .tlti _ _ => (0xFC1F0000#32, 0x040A0000#32)
  | .tltiu _ _ => (0xFC1F0000#32, 0x040B0000#32)
  | .teqi _ _ => (0xFC1F0000#32, 0x040C0000#32)
  | .tnei _ _ => (0xFC1F0000#32, 0x040E0000#32)
  | .bltzal _ _ => (0xFC1F0000#32, 0x04100000#32)
  | .bgezal _ _ => (0xFC1F0000#32, 0x04110000#32)
  | .bltzall _ _ => (0xFC1F0000#32, 0x04120000#32)
  | .bgezall _ _ => (0xFC1F0000#32, 0x04130000#32)

/-- The instruction's word has its row's fixed bits. -/
def Statement (i : Instr) : Prop := encode i &&& (row i).1 = (row i).2

theorem sll (rs rt rd : Register) (shamt : BitVec 5) : Statement (.sll rs rt rd shamt) := masked_r ..
theorem srl (rs rt rd : Register) (shamt : BitVec 5) : Statement (.srl rs rt rd shamt) := masked_r ..
theorem sra (rs rt rd : Register) (shamt : BitVec 5) : Statement (.sra rs rt rd shamt) := masked_r ..
theorem sllv (rs rt rd : Register) (shamt : BitVec 5) : Statement (.sllv rs rt rd shamt) := masked_r ..
theorem srlv (rs rt rd : Register) (shamt : BitVec 5) : Statement (.srlv rs rt rd shamt) := masked_r ..
theorem srav (rs rt rd : Register) (shamt : BitVec 5) : Statement (.srav rs rt rd shamt) := masked_r ..
theorem jr (rs rt rd : Register) (shamt : BitVec 5) : Statement (.jr rs rt rd shamt) := masked_r ..
theorem jalr (rs rt rd : Register) (shamt : BitVec 5) : Statement (.jalr rs rt rd shamt) := masked_r ..
theorem syscall (rs rt rd : Register) (shamt : BitVec 5) : Statement (.syscall rs rt rd shamt) := masked_r ..
theorem break_ (rs rt rd : Register) (shamt : BitVec 5) : Statement (.break_ rs rt rd shamt) := masked_r ..
theorem sync (rs rt rd : Register) (shamt : BitVec 5) : Statement (.sync rs rt rd shamt) := masked_r ..
theorem mfhi (rs rt rd : Register) (shamt : BitVec 5) : Statement (.mfhi rs rt rd shamt) := masked_r ..
theorem mthi (rs rt rd : Register) (shamt : BitVec 5) : Statement (.mthi rs rt rd shamt) := masked_r ..
theorem mflo (rs rt rd : Register) (shamt : BitVec 5) : Statement (.mflo rs rt rd shamt) := masked_r ..
theorem mtlo (rs rt rd : Register) (shamt : BitVec 5) : Statement (.mtlo rs rt rd shamt) := masked_r ..
theorem dsllv (rs rt rd : Register) (shamt : BitVec 5) : Statement (.dsllv rs rt rd shamt) := masked_r ..
theorem dsrlv (rs rt rd : Register) (shamt : BitVec 5) : Statement (.dsrlv rs rt rd shamt) := masked_r ..
theorem dsrav (rs rt rd : Register) (shamt : BitVec 5) : Statement (.dsrav rs rt rd shamt) := masked_r ..
theorem mult (rs rt rd : Register) (shamt : BitVec 5) : Statement (.mult rs rt rd shamt) := masked_r ..
theorem multu (rs rt rd : Register) (shamt : BitVec 5) : Statement (.multu rs rt rd shamt) := masked_r ..
theorem div (rs rt rd : Register) (shamt : BitVec 5) : Statement (.div rs rt rd shamt) := masked_r ..
theorem divu (rs rt rd : Register) (shamt : BitVec 5) : Statement (.divu rs rt rd shamt) := masked_r ..
theorem dmult (rs rt rd : Register) (shamt : BitVec 5) : Statement (.dmult rs rt rd shamt) := masked_r ..
theorem dmultu (rs rt rd : Register) (shamt : BitVec 5) : Statement (.dmultu rs rt rd shamt) := masked_r ..
theorem ddiv (rs rt rd : Register) (shamt : BitVec 5) : Statement (.ddiv rs rt rd shamt) := masked_r ..
theorem ddivu (rs rt rd : Register) (shamt : BitVec 5) : Statement (.ddivu rs rt rd shamt) := masked_r ..
theorem add (rs rt rd : Register) (shamt : BitVec 5) : Statement (.add rs rt rd shamt) := masked_r ..
theorem addu (rs rt rd : Register) (shamt : BitVec 5) : Statement (.addu rs rt rd shamt) := masked_r ..
theorem sub (rs rt rd : Register) (shamt : BitVec 5) : Statement (.sub rs rt rd shamt) := masked_r ..
theorem subu (rs rt rd : Register) (shamt : BitVec 5) : Statement (.subu rs rt rd shamt) := masked_r ..
theorem and (rs rt rd : Register) (shamt : BitVec 5) : Statement (.and rs rt rd shamt) := masked_r ..
theorem or (rs rt rd : Register) (shamt : BitVec 5) : Statement (.or rs rt rd shamt) := masked_r ..
theorem xor (rs rt rd : Register) (shamt : BitVec 5) : Statement (.xor rs rt rd shamt) := masked_r ..
theorem nor (rs rt rd : Register) (shamt : BitVec 5) : Statement (.nor rs rt rd shamt) := masked_r ..
theorem slt (rs rt rd : Register) (shamt : BitVec 5) : Statement (.slt rs rt rd shamt) := masked_r ..
theorem sltu (rs rt rd : Register) (shamt : BitVec 5) : Statement (.sltu rs rt rd shamt) := masked_r ..
theorem dadd (rs rt rd : Register) (shamt : BitVec 5) : Statement (.dadd rs rt rd shamt) := masked_r ..
theorem daddu (rs rt rd : Register) (shamt : BitVec 5) : Statement (.daddu rs rt rd shamt) := masked_r ..
theorem dsub (rs rt rd : Register) (shamt : BitVec 5) : Statement (.dsub rs rt rd shamt) := masked_r ..
theorem dsubu (rs rt rd : Register) (shamt : BitVec 5) : Statement (.dsubu rs rt rd shamt) := masked_r ..
theorem tge (rs rt rd : Register) (shamt : BitVec 5) : Statement (.tge rs rt rd shamt) := masked_r ..
theorem tgeu (rs rt rd : Register) (shamt : BitVec 5) : Statement (.tgeu rs rt rd shamt) := masked_r ..
theorem tlt (rs rt rd : Register) (shamt : BitVec 5) : Statement (.tlt rs rt rd shamt) := masked_r ..
theorem tltu (rs rt rd : Register) (shamt : BitVec 5) : Statement (.tltu rs rt rd shamt) := masked_r ..
theorem teq (rs rt rd : Register) (shamt : BitVec 5) : Statement (.teq rs rt rd shamt) := masked_r ..
theorem tne (rs rt rd : Register) (shamt : BitVec 5) : Statement (.tne rs rt rd shamt) := masked_r ..
theorem dsll (rs rt rd : Register) (shamt : BitVec 5) : Statement (.dsll rs rt rd shamt) := masked_r ..
theorem dsrl (rs rt rd : Register) (shamt : BitVec 5) : Statement (.dsrl rs rt rd shamt) := masked_r ..
theorem dsra (rs rt rd : Register) (shamt : BitVec 5) : Statement (.dsra rs rt rd shamt) := masked_r ..
theorem dsll32 (rs rt rd : Register) (shamt : BitVec 5) : Statement (.dsll32 rs rt rd shamt) := masked_r ..
theorem dsrl32 (rs rt rd : Register) (shamt : BitVec 5) : Statement (.dsrl32 rs rt rd shamt) := masked_r ..
theorem dsra32 (rs rt rd : Register) (shamt : BitVec 5) : Statement (.dsra32 rs rt rd shamt) := masked_r ..
theorem mfc1 (ft fs fd : FPRegister) (func : BitVec 6) : Statement (.mfc1 ft fs fd func) := masked_move ..
theorem dmfc1 (ft fs fd : FPRegister) (func : BitVec 6) : Statement (.dmfc1 ft fs fd func) := masked_move ..
theorem cfc1 (ft fs fd : FPRegister) (func : BitVec 6) : Statement (.cfc1 ft fs fd func) := masked_move ..
theorem mtc1 (ft fs fd : FPRegister) (func : BitVec 6) : Statement (.mtc1 ft fs fd func) := masked_move ..
theorem dmtc1 (ft fs fd : FPRegister) (func : BitVec 6) : Statement (.dmtc1 ft fs fd func) := masked_move ..
theorem ctc1 (ft fs fd : FPRegister) (func : BitVec 6) : Statement (.ctc1 ft fs fd func) := masked_move ..
theorem bc1f (cc : BitVec 3) (offset : BitVec 16) : Statement (.bc1f cc offset) := masked_bc ..
theorem bc1t (cc : BitVec 3) (offset : BitVec 16) : Statement (.bc1t cc offset) := masked_bc ..
theorem bc1fl (cc : BitVec 3) (offset : BitVec 16) : Statement (.bc1fl cc offset) := masked_bc ..
theorem bc1tl (cc : BitVec 3) (offset : BitVec 16) : Statement (.bc1tl cc offset) := masked_bc ..
theorem addFmt (fmt : ArithFmt) (ft fs fd : FPRegister) : Statement (.addFmt fmt ft fs fd) := masked_arith ..
theorem subFmt (fmt : ArithFmt) (ft fs fd : FPRegister) : Statement (.subFmt fmt ft fs fd) := masked_arith ..
theorem mulFmt (fmt : ArithFmt) (ft fs fd : FPRegister) : Statement (.mulFmt fmt ft fs fd) := masked_arith ..
theorem divFmt (fmt : ArithFmt) (ft fs fd : FPRegister) : Statement (.divFmt fmt ft fs fd) := masked_arith ..
theorem sqrtFmt (fmt : ArithFmt) (ft fs fd : FPRegister) : Statement (.sqrtFmt fmt ft fs fd) := masked_arith ..
theorem absFmt (fmt : ArithFmt) (ft fs fd : FPRegister) : Statement (.absFmt fmt ft fs fd) := masked_arith ..
theorem movFmt (fmt : ArithFmt) (ft fs fd : FPRegister) : Statement (.movFmt fmt ft fs fd) := masked_arith ..
theorem negFmt (fmt : ArithFmt) (ft fs fd : FPRegister) : Statement (.negFmt fmt ft fs fd) := masked_arith ..
theorem roundLFmt (fmt : ArithFmt) (ft fs fd : FPRegister) : Statement (.roundLFmt fmt ft fs fd) := masked_arith ..
theorem truncLFmt (fmt : ArithFmt) (ft fs fd : FPRegister) : Statement (.truncLFmt fmt ft fs fd) := masked_arith ..
theorem ceilLFmt (fmt : ArithFmt) (ft fs fd : FPRegister) : Statement (.ceilLFmt fmt ft fs fd) := masked_arith ..
theorem floorLFmt (fmt : ArithFmt) (ft fs fd : FPRegister) : Statement (.floorLFmt fmt ft fs fd) := masked_arith ..
theorem roundWFmt (fmt : ArithFmt) (ft fs fd : FPRegister) : Statement (.roundWFmt fmt ft fs fd) := masked_arith ..
theorem truncWFmt (fmt : ArithFmt) (ft fs fd : FPRegister) : Statement (.truncWFmt fmt ft fs fd) := masked_arith ..
theorem ceilWFmt (fmt : ArithFmt) (ft fs fd : FPRegister) : Statement (.ceilWFmt fmt ft fs fd) := masked_arith ..
theorem floorWFmt (fmt : ArithFmt) (ft fs fd : FPRegister) : Statement (.floorWFmt fmt ft fs fd) := masked_arith ..
theorem cvtSFmt (fmt : ArithFmt) (ft fs fd : FPRegister) : Statement (.cvtSFmt fmt ft fs fd) := masked_arith ..
theorem cvtDFmt (fmt : ArithFmt) (ft fs fd : FPRegister) : Statement (.cvtDFmt fmt ft fs fd) := masked_arith ..
theorem cvtWFmt (fmt : ArithFmt) (ft fs fd : FPRegister) : Statement (.cvtWFmt fmt ft fs fd) := masked_arith ..
theorem cvtLFmt (fmt : ArithFmt) (ft fs fd : FPRegister) : Statement (.cvtLFmt fmt ft fs fd) := masked_arith ..
theorem cFFmt (fmt : ArithFmt) (ft fs fd : FPRegister) : Statement (.cFFmt fmt ft fs fd) := masked_arith ..
theorem cUnFmt (fmt : ArithFmt) (ft fs fd : FPRegister) : Statement (.cUnFmt fmt ft fs fd) := masked_arith ..
theorem cEqFmt (fmt : ArithFmt) (ft fs fd : FPRegister) : Statement (.cEqFmt fmt ft fs fd) := masked_arith ..
theorem cUeqFmt (fmt : ArithFmt) (ft fs fd : FPRegister) : Statement (.cUeqFmt fmt ft fs fd) := masked_arith ..
theorem cOltFmt (fmt : ArithFmt) (ft fs fd : FPRegister) : Statement (.cOltFmt fmt ft fs fd) := masked_arith ..
theorem cUltFmt (fmt : ArithFmt) (ft fs fd : FPRegister) : Statement (.cUltFmt fmt ft fs fd) := masked_arith ..
theorem cOleFmt (fmt : ArithFmt) (ft fs fd : FPRegister) : Statement (.cOleFmt fmt ft fs fd) := masked_arith ..
theorem cUleFmt (fmt : ArithFmt) (ft fs fd : FPRegister) : Statement (.cUleFmt fmt ft fs fd) := masked_arith ..
theorem cSfFmt (fmt : ArithFmt) (ft fs fd : FPRegister) : Statement (.cSfFmt fmt ft fs fd) := masked_arith ..
theorem cNgleFmt (fmt : ArithFmt) (ft fs fd : FPRegister) : Statement (.cNgleFmt fmt ft fs fd) := masked_arith ..
theorem cSeqFmt (fmt : ArithFmt) (ft fs fd : FPRegister) : Statement (.cSeqFmt fmt ft fs fd) := masked_arith ..
theorem cNglFmt (fmt : ArithFmt) (ft fs fd : FPRegister) : Statement (.cNglFmt fmt ft fs fd) := masked_arith ..
theorem cLtFmt (fmt : ArithFmt) (ft fs fd : FPRegister) : Statement (.cLtFmt fmt ft fs fd) := masked_arith ..
theorem cNgeFmt (fmt : ArithFmt) (ft fs fd : FPRegister) : Statement (.cNgeFmt fmt ft fs fd) := masked_arith ..
theorem cLeFmt (fmt : ArithFmt) (ft fs fd : FPRegister) : Statement (.cLeFmt fmt ft fs fd) := masked_arith ..
theorem cNgtFmt (fmt : ArithFmt) (ft fs fd : FPRegister) : Statement (.cNgtFmt fmt ft fs fd) := masked_arith ..
theorem j (addr : BitVec 26) : Statement (.j addr) := masked_j ..
theorem jal (addr : BitVec 26) : Statement (.jal addr) := masked_j ..
theorem beq (rs rt : Register) (imm : BitVec 16) : Statement (.beq rs rt imm) := masked_i ..
theorem bne (rs rt : Register) (imm : BitVec 16) : Statement (.bne rs rt imm) := masked_i ..
theorem blez (rs rt : Register) (imm : BitVec 16) : Statement (.blez rs rt imm) := masked_i ..
theorem bgtz (rs rt : Register) (imm : BitVec 16) : Statement (.bgtz rs rt imm) := masked_i ..
theorem addi (rs rt : Register) (imm : BitVec 16) : Statement (.addi rs rt imm) := masked_i ..
theorem addiu (rs rt : Register) (imm : BitVec 16) : Statement (.addiu rs rt imm) := masked_i ..
theorem slti (rs rt : Register) (imm : BitVec 16) : Statement (.slti rs rt imm) := masked_i ..
theorem sltiu (rs rt : Register) (imm : BitVec 16) : Statement (.sltiu rs rt imm) := masked_i ..
theorem andi (rs rt : Register) (imm : BitVec 16) : Statement (.andi rs rt imm) := masked_i ..
theorem ori (rs rt : Register) (imm : BitVec 16) : Statement (.ori rs rt imm) := masked_i ..
theorem xori (rs rt : Register) (imm : BitVec 16) : Statement (.xori rs rt imm) := masked_i ..
theorem lui (rs rt : Register) (imm : BitVec 16) : Statement (.lui rs rt imm) := masked_i ..
theorem beql (rs rt : Register) (imm : BitVec 16) : Statement (.beql rs rt imm) := masked_i ..
theorem bnel (rs rt : Register) (imm : BitVec 16) : Statement (.bnel rs rt imm) := masked_i ..
theorem blezl (rs rt : Register) (imm : BitVec 16) : Statement (.blezl rs rt imm) := masked_i ..
theorem bgtzl (rs rt : Register) (imm : BitVec 16) : Statement (.bgtzl rs rt imm) := masked_i ..
theorem daddi (rs rt : Register) (imm : BitVec 16) : Statement (.daddi rs rt imm) := masked_i ..
theorem daddiu (rs rt : Register) (imm : BitVec 16) : Statement (.daddiu rs rt imm) := masked_i ..
theorem ldl (rs rt : Register) (imm : BitVec 16) : Statement (.ldl rs rt imm) := masked_i ..
theorem ldr (rs rt : Register) (imm : BitVec 16) : Statement (.ldr rs rt imm) := masked_i ..
theorem lb (rs rt : Register) (imm : BitVec 16) : Statement (.lb rs rt imm) := masked_i ..
theorem lh (rs rt : Register) (imm : BitVec 16) : Statement (.lh rs rt imm) := masked_i ..
theorem lwl (rs rt : Register) (imm : BitVec 16) : Statement (.lwl rs rt imm) := masked_i ..
theorem lw (rs rt : Register) (imm : BitVec 16) : Statement (.lw rs rt imm) := masked_i ..
theorem lbu (rs rt : Register) (imm : BitVec 16) : Statement (.lbu rs rt imm) := masked_i ..
theorem lhu (rs rt : Register) (imm : BitVec 16) : Statement (.lhu rs rt imm) := masked_i ..
theorem lwr (rs rt : Register) (imm : BitVec 16) : Statement (.lwr rs rt imm) := masked_i ..
theorem lwu (rs rt : Register) (imm : BitVec 16) : Statement (.lwu rs rt imm) := masked_i ..
theorem sb (rs rt : Register) (imm : BitVec 16) : Statement (.sb rs rt imm) := masked_i ..
theorem sh (rs rt : Register) (imm : BitVec 16) : Statement (.sh rs rt imm) := masked_i ..
theorem swl (rs rt : Register) (imm : BitVec 16) : Statement (.swl rs rt imm) := masked_i ..
theorem sw (rs rt : Register) (imm : BitVec 16) : Statement (.sw rs rt imm) := masked_i ..
theorem sdl (rs rt : Register) (imm : BitVec 16) : Statement (.sdl rs rt imm) := masked_i ..
theorem sdr (rs rt : Register) (imm : BitVec 16) : Statement (.sdr rs rt imm) := masked_i ..
theorem swr (rs rt : Register) (imm : BitVec 16) : Statement (.swr rs rt imm) := masked_i ..
theorem ll (rs rt : Register) (imm : BitVec 16) : Statement (.ll rs rt imm) := masked_i ..
theorem lwc1 (rs rt : Register) (imm : BitVec 16) : Statement (.lwc1 rs rt imm) := masked_i ..
theorem lld (rs rt : Register) (imm : BitVec 16) : Statement (.lld rs rt imm) := masked_i ..
theorem ldc1 (rs rt : Register) (imm : BitVec 16) : Statement (.ldc1 rs rt imm) := masked_i ..
theorem ld (rs rt : Register) (imm : BitVec 16) : Statement (.ld rs rt imm) := masked_i ..
theorem sc (rs rt : Register) (imm : BitVec 16) : Statement (.sc rs rt imm) := masked_i ..
theorem swc1 (rs rt : Register) (imm : BitVec 16) : Statement (.swc1 rs rt imm) := masked_i ..
theorem scd (rs rt : Register) (imm : BitVec 16) : Statement (.scd rs rt imm) := masked_i ..
theorem sdc1 (rs rt : Register) (imm : BitVec 16) : Statement (.sdc1 rs rt imm) := masked_i ..
theorem sd (rs rt : Register) (imm : BitVec 16) : Statement (.sd rs rt imm) := masked_i ..
theorem bltz (rs : Register) (imm : BitVec 16) : Statement (.bltz rs imm) := masked_regimm ..
theorem bgez (rs : Register) (imm : BitVec 16) : Statement (.bgez rs imm) := masked_regimm ..
theorem bltzl (rs : Register) (imm : BitVec 16) : Statement (.bltzl rs imm) := masked_regimm ..
theorem bgezl (rs : Register) (imm : BitVec 16) : Statement (.bgezl rs imm) := masked_regimm ..
theorem tgei (rs : Register) (imm : BitVec 16) : Statement (.tgei rs imm) := masked_regimm ..
theorem tgeiu (rs : Register) (imm : BitVec 16) : Statement (.tgeiu rs imm) := masked_regimm ..
theorem tlti (rs : Register) (imm : BitVec 16) : Statement (.tlti rs imm) := masked_regimm ..
theorem tltiu (rs : Register) (imm : BitVec 16) : Statement (.tltiu rs imm) := masked_regimm ..
theorem teqi (rs : Register) (imm : BitVec 16) : Statement (.teqi rs imm) := masked_regimm ..
theorem tnei (rs : Register) (imm : BitVec 16) : Statement (.tnei rs imm) := masked_regimm ..
theorem bltzal (rs : Register) (imm : BitVec 16) : Statement (.bltzal rs imm) := masked_regimm ..
theorem bgezal (rs : Register) (imm : BitVec 16) : Statement (.bgezal rs imm) := masked_regimm ..
theorem bltzall (rs : Register) (imm : BitVec 16) : Statement (.bltzall rs imm) := masked_regimm ..
theorem bgezall (rs : Register) (imm : BitVec 16) : Statement (.bgezall rs imm) := masked_regimm ..

end OpcodeRow

end Sys2Proof.Laws
end

