-- ==== Sys2Proof/Tests/Slice0.lean ====
section
/-! SUPPORT. The model's own tests. Every expected result stands in spec/: the "Example: word" lines of R91 to R257, the
vectors of 95_test_vectors.md, or a rule's stated corner case. `test_wit_<Name>` shows values that meet all hypotheses of
the obligation `<Name>`, clause by clause, at a boundary of their range. -/

namespace Sys2Proof.Machine.Tests

/-! Well-formedness: one ill-formed term for each check (R23, R56). -/

theorem test_ill_formed_r_rs : (Instr.add Register.lo Register.t2 Register.t0 0).wellFormed = false := by decide
theorem test_ill_formed_r_rt : (Instr.div Register.t1 Register.hi Register.zero 0).wellFormed = false := by decide
theorem test_ill_formed_r_rd : (Instr.mflo Register.zero Register.zero Register.lo 0).wellFormed = false := by decide
theorem test_ill_formed_i_rs : (Instr.addi Register.hi Register.t0 1).wellFormed = false := by decide
theorem test_ill_formed_i_rt : (Instr.daddiu Register.t1 Register.lo 1).wellFormed = false := by decide
theorem test_ill_formed_regimm_rs : (Instr.bltz Register.lo 4).wellFormed = false := by decide

/-! Decoding: for every row of the opcode table, the word of the spec's example of it and the fields the example names. -/

/-- R107 to R114: SLL, SRL, SRA, SLLV, SRLV, SRAV, JR, JALR. -/
theorem test_decode_r_1 :
    decode 0x000A4100#32 = .ok (.sll Register.zero Register.t2 Register.t0 4) ∧
    decode 0x000A4102#32 = .ok (.srl Register.zero Register.t2 Register.t0 4) ∧
    decode 0x000A4103#32 = .ok (.sra Register.zero Register.t2 Register.t0 4) ∧
    decode 0x012A4004#32 = .ok (.sllv Register.t1 Register.t2 Register.t0 0) ∧
    decode 0x012A4006#32 = .ok (.srlv Register.t1 Register.t2 Register.t0 0) ∧
    decode 0x012A4007#32 = .ok (.srav Register.t1 Register.t2 Register.t0 0) ∧
    decode 0x01200008#32 = .ok (.jr Register.t1 Register.zero Register.zero 0) ∧
    decode 0x0120F809#32 = .ok (.jalr Register.t1 Register.zero Register.ra 0) := by
  decide

/-- R115 to R122: SYSCALL, BREAK, SYNC, MFHI, MTHI, MFLO, MTLO, DSLLV. -/
theorem test_decode_r_2 :
    decode 0x0000000C#32 = .ok (.syscall Register.zero Register.zero Register.zero 0) ∧
    decode 0x0000000D#32 = .ok (.break_ Register.zero Register.zero Register.zero 0) ∧
    decode 0x0000000F#32 = .ok (.sync Register.zero Register.zero Register.zero 0) ∧
    decode 0x00004010#32 = .ok (.mfhi Register.zero Register.zero Register.t0 0) ∧
    decode 0x01200011#32 = .ok (.mthi Register.t1 Register.zero Register.zero 0) ∧
    decode 0x00004012#32 = .ok (.mflo Register.zero Register.zero Register.t0 0) ∧
    decode 0x01200013#32 = .ok (.mtlo Register.t1 Register.zero Register.zero 0) ∧
    decode 0x012A4014#32 = .ok (.dsllv Register.t1 Register.t2 Register.t0 0) := by
  decide

/-- R123 to R128: DSRLV, DSRAV, MULT, MULTU, DIV, DIVU, DMULT, DMULTU. -/
theorem test_decode_r_3 :
    decode 0x012A4016#32 = .ok (.dsrlv Register.t1 Register.t2 Register.t0 0) ∧
    decode 0x012A4017#32 = .ok (.dsrav Register.t1 Register.t2 Register.t0 0) ∧
    decode 0x012A0018#32 = .ok (.mult Register.t1 Register.t2 Register.zero 0) ∧
    decode 0x012A0019#32 = .ok (.multu Register.t1 Register.t2 Register.zero 0) ∧
    decode 0x012A001A#32 = .ok (.div Register.t1 Register.t2 Register.zero 0) ∧
    decode 0x012A001B#32 = .ok (.divu Register.t1 Register.t2 Register.zero 0) ∧
    decode 0x012A001C#32 = .ok (.dmult Register.t1 Register.t2 Register.zero 0) ∧
    decode 0x012A001D#32 = .ok (.dmultu Register.t1 Register.t2 Register.zero 0) := by
  decide

/-- R104 to R132: DDIV, DDIVU, ADD, ADDU, SUB, SUBU, AND, OR. -/
theorem test_decode_r_4 :
    decode 0x012A001E#32 = .ok (.ddiv Register.t1 Register.t2 Register.zero 0) ∧
    decode 0x012A001F#32 = .ok (.ddivu Register.t1 Register.t2 Register.zero 0) ∧
    decode 0x012A4020#32 = .ok (.add Register.t1 Register.t2 Register.t0 0) ∧
    decode 0x012A4021#32 = .ok (.addu Register.t1 Register.t2 Register.t0 0) ∧
    decode 0x012A4022#32 = .ok (.sub Register.t1 Register.t2 Register.t0 0) ∧
    decode 0x012A4023#32 = .ok (.subu Register.t1 Register.t2 Register.t0 0) ∧
    decode 0x012A4024#32 = .ok (.and Register.t1 Register.t2 Register.t0 0) ∧
    decode 0x012A4025#32 = .ok (.or Register.t1 Register.t2 Register.t0 0) := by
  decide

/-- R133 to R138: XOR, NOR, SLT, SLTU, DADD, DADDU, DSUB, DSUBU. -/
theorem test_decode_r_5 :
    decode 0x012A4026#32 = .ok (.xor Register.t1 Register.t2 Register.t0 0) ∧
    decode 0x012A4027#32 = .ok (.nor Register.t1 Register.t2 Register.t0 0) ∧
    decode 0x012A402A#32 = .ok (.slt Register.t1 Register.t2 Register.t0 0) ∧
    decode 0x012A402B#32 = .ok (.sltu Register.t1 Register.t2 Register.t0 0) ∧
    decode 0x012A402C#32 = .ok (.dadd Register.t1 Register.t2 Register.t0 0) ∧
    decode 0x012A402D#32 = .ok (.daddu Register.t1 Register.t2 Register.t0 0) ∧
    decode 0x012A402E#32 = .ok (.dsub Register.t1 Register.t2 Register.t0 0) ∧
    decode 0x012A402F#32 = .ok (.dsubu Register.t1 Register.t2 Register.t0 0) := by
  decide

/-- R139 to R146: TGE, TGEU, TLT, TLTU, TEQ, TNE, DSLL, DSRL. -/
theorem test_decode_r_6 :
    decode 0x012A0030#32 = .ok (.tge Register.t1 Register.t2 Register.zero 0) ∧
    decode 0x012A0031#32 = .ok (.tgeu Register.t1 Register.t2 Register.zero 0) ∧
    decode 0x012A0032#32 = .ok (.tlt Register.t1 Register.t2 Register.zero 0) ∧
    decode 0x012A0033#32 = .ok (.tltu Register.t1 Register.t2 Register.zero 0) ∧
    decode 0x012A0034#32 = .ok (.teq Register.t1 Register.t2 Register.zero 0) ∧
    decode 0x012A0036#32 = .ok (.tne Register.t1 Register.t2 Register.zero 0) ∧
    decode 0x000A4138#32 = .ok (.dsll Register.zero Register.t2 Register.t0 4) ∧
    decode 0x000A413A#32 = .ok (.dsrl Register.zero Register.t2 Register.t0 4) := by
  decide

/-- R147 to R150: DSRA, DSLL32, DSRL32, DSRA32. -/
theorem test_decode_r_7 :
    decode 0x000A413B#32 = .ok (.dsra Register.zero Register.t2 Register.t0 4) ∧
    decode 0x000A413C#32 = .ok (.dsll32 Register.zero Register.t2 Register.t0 4) ∧
    decode 0x000A413E#32 = .ok (.dsrl32 Register.zero Register.t2 Register.t0 4) ∧
    decode 0x000A413F#32 = .ok (.dsra32 Register.zero Register.t2 Register.t0 4) := by
  decide

/-- R152 to R159: MFC1, DMFC1, CFC1, MTC1, DMTC1, CTC1, BC1F, BC1T. -/
theorem test_decode_cop1_1 :
    decode 0x44081000#32 = .ok (.mfc1 8 2 0 0) ∧
    decode 0x44281000#32 = .ok (.dmfc1 8 2 0 0) ∧
    decode 0x44481000#32 = .ok (.cfc1 8 2 0 0) ∧
    decode 0x44881000#32 = .ok (.mtc1 8 2 0 0) ∧
    decode 0x44A81000#32 = .ok (.dmtc1 8 2 0 0) ∧
    decode 0x44C81000#32 = .ok (.ctc1 8 2 0 0) ∧
    decode 0x45000004#32 = .ok (.bc1f 0 4) ∧
    decode 0x45010004#32 = .ok (.bc1t 0 4) := by
  decide

/-- R160 to R167: BC1FL, BC1TL, ADD.fmt, SUB.fmt, MUL.fmt, DIV.fmt, SQRT.fmt, ABS.fmt. -/
theorem test_decode_cop1_2 :
    decode 0x45020004#32 = .ok (.bc1fl 0 4) ∧
    decode 0x45030004#32 = .ok (.bc1tl 0 4) ∧
    decode 0x46041000#32 = .ok (.addFmt .s 4 2 0) ∧
    decode 0x46041001#32 = .ok (.subFmt .s 4 2 0) ∧
    decode 0x46041002#32 = .ok (.mulFmt .s 4 2 0) ∧
    decode 0x46041003#32 = .ok (.divFmt .s 4 2 0) ∧
    decode 0x46001004#32 = .ok (.sqrtFmt .s 0 2 0) ∧
    decode 0x46001005#32 = .ok (.absFmt .s 0 2 0) := by
  decide

/-- R168 to R175: MOV.fmt, NEG.fmt, ROUND.L.fmt, TRUNC.L.fmt, CEIL.L.fmt, FLOOR.L.fmt, ROUND.W.fmt, TRUNC.W.fmt. -/
theorem test_decode_cop1_3 :
    decode 0x46001006#32 = .ok (.movFmt .s 0 2 0) ∧
    decode 0x46001007#32 = .ok (.negFmt .s 0 2 0) ∧
    decode 0x46001008#32 = .ok (.roundLFmt .s 0 2 0) ∧
    decode 0x46001009#32 = .ok (.truncLFmt .s 0 2 0) ∧
    decode 0x4600100A#32 = .ok (.ceilLFmt .s 0 2 0) ∧
    decode 0x4600100B#32 = .ok (.floorLFmt .s 0 2 0) ∧
    decode 0x4600100C#32 = .ok (.roundWFmt .s 0 2 0) ∧
    decode 0x4600100D#32 = .ok (.truncWFmt .s 0 2 0) := by
  decide

/-- R176 to R183: CEIL.W.fmt, FLOOR.W.fmt, CVT.S.fmt, CVT.D.fmt, CVT.W.fmt, CVT.L.fmt, C.F.fmt, C.UN.fmt. -/
theorem test_decode_cop1_4 :
    decode 0x4600100E#32 = .ok (.ceilWFmt .s 0 2 0) ∧
    decode 0x4600100F#32 = .ok (.floorWFmt .s 0 2 0) ∧
    decode 0x46001020#32 = .ok (.cvtSFmt .s 0 2 0) ∧
    decode 0x46001021#32 = .ok (.cvtDFmt .s 0 2 0) ∧
    decode 0x46001024#32 = .ok (.cvtWFmt .s 0 2 0) ∧
    decode 0x46001025#32 = .ok (.cvtLFmt .s 0 2 0) ∧
    decode 0x46041030#32 = .ok (.cFFmt .s 4 2 0) ∧
    decode 0x46041031#32 = .ok (.cUnFmt .s 4 2 0) := by
  decide

/-- R184 to R191: C.EQ.fmt, C.UEQ.fmt, C.OLT.fmt, C.ULT.fmt, C.OLE.fmt, C.ULE.fmt, C.SF.fmt, C.NGLE.fmt. -/
theorem test_decode_cop1_5 :
    decode 0x46041032#32 = .ok (.cEqFmt .s 4 2 0) ∧
    decode 0x46041033#32 = .ok (.cUeqFmt .s 4 2 0) ∧
    decode 0x46041034#32 = .ok (.cOltFmt .s 4 2 0) ∧
    decode 0x46041035#32 = .ok (.cUltFmt .s 4 2 0) ∧
    decode 0x46041036#32 = .ok (.cOleFmt .s 4 2 0) ∧
    decode 0x46041037#32 = .ok (.cUleFmt .s 4 2 0) ∧
    decode 0x46041038#32 = .ok (.cSfFmt .s 4 2 0) ∧
    decode 0x46041039#32 = .ok (.cNgleFmt .s 4 2 0) := by
  decide

/-- R192 to R197: C.SEQ.fmt, C.NGL.fmt, C.LT.fmt, C.NGE.fmt, C.LE.fmt, C.NGT.fmt. -/
theorem test_decode_cop1_6 :
    decode 0x4604103A#32 = .ok (.cSeqFmt .s 4 2 0) ∧
    decode 0x4604103B#32 = .ok (.cNglFmt .s 4 2 0) ∧
    decode 0x4604103C#32 = .ok (.cLtFmt .s 4 2 0) ∧
    decode 0x4604103D#32 = .ok (.cNgeFmt .s 4 2 0) ∧
    decode 0x4604103E#32 = .ok (.cLeFmt .s 4 2 0) ∧
    decode 0x4604103F#32 = .ok (.cNgtFmt .s 4 2 0) := by
  decide

/-- R199 to R200: J, JAL. -/
theorem test_decode_j_1 :
    decode 0x0800001E#32 = .ok (.j 30) ∧
    decode 0x0C100000#32 = .ok (.jal 1048576) := by
  decide

/-- R202 to R207: BEQ, BNE, BLEZ, BGTZ, ADDI, ADDIU, SLTI, SLTIU. -/
theorem test_decode_i_1 :
    decode 0x112A0004#32 = .ok (.beq Register.t1 Register.t2 0x0004) ∧
    decode 0x152A0004#32 = .ok (.bne Register.t1 Register.t2 0x0004) ∧
    decode 0x19200004#32 = .ok (.blez Register.t1 Register.zero 0x0004) ∧
    decode 0x1D200004#32 = .ok (.bgtz Register.t1 Register.zero 0x0004) ∧
    decode 0x2204FFFF#32 = .ok (.addi Register.s0 Register.a0 0xFFFF) ∧
    decode 0x2528FFFF#32 = .ok (.addiu Register.t1 Register.t0 0xFFFF) ∧
    decode 0x292AFFFF#32 = .ok (.slti Register.t1 Register.t2 0xFFFF) ∧
    decode 0x2D2AFFFF#32 = .ok (.sltiu Register.t1 Register.t2 0xFFFF) := by
  decide

/-- R208 to R215: ANDI, ORI, XORI, LUI, BEQL, BNEL, BLEZL, BGTZL. -/
theorem test_decode_i_2 :
    decode 0x312AFFFF#32 = .ok (.andi Register.t1 Register.t2 0xFFFF) ∧
    decode 0x352AFFFF#32 = .ok (.ori Register.t1 Register.t2 0xFFFF) ∧
    decode 0x392AFFFF#32 = .ok (.xori Register.t1 Register.t2 0xFFFF) ∧
    decode 0x3C0A1234#32 = .ok (.lui Register.zero Register.t2 0x1234) ∧
    decode 0x512A0004#32 = .ok (.beql Register.t1 Register.t2 0x0004) ∧
    decode 0x552A0004#32 = .ok (.bnel Register.t1 Register.t2 0x0004) ∧
    decode 0x59200004#32 = .ok (.blezl Register.t1 Register.zero 0x0004) ∧
    decode 0x5D200004#32 = .ok (.bgtzl Register.t1 Register.zero 0x0004) := by
  decide

/-- R96 to R221: DADDI, DADDIU, LDL, LDR, LB, LH, LWL, LW. -/
theorem test_decode_i_3 :
    decode 0x6128FFFF#32 = .ok (.daddi Register.t1 Register.t0 0xFFFF) ∧
    decode 0x6528FFFF#32 = .ok (.daddiu Register.t1 Register.t0 0xFFFF) ∧
    decode 0x692A0008#32 = .ok (.ldl Register.t1 Register.t2 0x0008) ∧
    decode 0x6D2A0008#32 = .ok (.ldr Register.t1 Register.t2 0x0008) ∧
    decode 0x812A0008#32 = .ok (.lb Register.t1 Register.t2 0x0008) ∧
    decode 0x852A0008#32 = .ok (.lh Register.t1 Register.t2 0x0008) ∧
    decode 0x892A0008#32 = .ok (.lwl Register.t1 Register.t2 0x0008) ∧
    decode 0x8D2A0008#32 = .ok (.lw Register.t1 Register.t2 0x0008) := by
  decide

/-- R222 to R229: LBU, LHU, LWR, LWU, SB, SH, SWL, SW. -/
theorem test_decode_i_4 :
    decode 0x912A0008#32 = .ok (.lbu Register.t1 Register.t2 0x0008) ∧
    decode 0x952A0008#32 = .ok (.lhu Register.t1 Register.t2 0x0008) ∧
    decode 0x992A0008#32 = .ok (.lwr Register.t1 Register.t2 0x0008) ∧
    decode 0x9D2A0008#32 = .ok (.lwu Register.t1 Register.t2 0x0008) ∧
    decode 0xA12A0008#32 = .ok (.sb Register.t1 Register.t2 0x0008) ∧
    decode 0xA52A0008#32 = .ok (.sh Register.t1 Register.t2 0x0008) ∧
    decode 0xA92A0008#32 = .ok (.swl Register.t1 Register.t2 0x0008) ∧
    decode 0xAD2A0008#32 = .ok (.sw Register.t1 Register.t2 0x0008) := by
  decide

/-- R230 to R237: SDL, SDR, SWR, LL, LWC1, LLD, LDC1, LD. -/
theorem test_decode_i_5 :
    decode 0xB12A0008#32 = .ok (.sdl Register.t1 Register.t2 0x0008) ∧
    decode 0xB52A0008#32 = .ok (.sdr Register.t1 Register.t2 0x0008) ∧
    decode 0xB92A0008#32 = .ok (.swr Register.t1 Register.t2 0x0008) ∧
    decode 0xC12A0008#32 = .ok (.ll Register.t1 Register.t2 0x0008) ∧
    decode 0xC5220008#32 = .ok (.lwc1 Register.t1 Register.v0 0x0008) ∧
    decode 0xD12A0008#32 = .ok (.lld Register.t1 Register.t2 0x0008) ∧
    decode 0xD5220008#32 = .ok (.ldc1 Register.t1 Register.v0 0x0008) ∧
    decode 0xDD2A0008#32 = .ok (.ld Register.t1 Register.t2 0x0008) := by
  decide

/-- R238 to R242: SC, SWC1, SCD, SDC1, SD. -/
theorem test_decode_i_6 :
    decode 0xE12A0008#32 = .ok (.sc Register.t1 Register.t2 0x0008) ∧
    decode 0xE5220008#32 = .ok (.swc1 Register.t1 Register.v0 0x0008) ∧
    decode 0xF12A0008#32 = .ok (.scd Register.t1 Register.t2 0x0008) ∧
    decode 0xF5220008#32 = .ok (.sdc1 Register.t1 Register.v0 0x0008) ∧
    decode 0xFD2A0008#32 = .ok (.sd Register.t1 Register.t2 0x0008) := by
  decide

/-- R244 to R251: BLTZ, BGEZ, BLTZL, BGEZL, TGEI, TGEIU, TLTI, TLTIU. -/
theorem test_decode_regimm_1 :
    decode 0x05200004#32 = .ok (.bltz Register.t1 0x0004) ∧
    decode 0x05210004#32 = .ok (.bgez Register.t1 0x0004) ∧
    decode 0x05220004#32 = .ok (.bltzl Register.t1 0x0004) ∧
    decode 0x05230004#32 = .ok (.bgezl Register.t1 0x0004) ∧
    decode 0x0528FFFF#32 = .ok (.tgei Register.t1 0xFFFF) ∧
    decode 0x0529FFFF#32 = .ok (.tgeiu Register.t1 0xFFFF) ∧
    decode 0x052AFFFF#32 = .ok (.tlti Register.t1 0xFFFF) ∧
    decode 0x052BFFFF#32 = .ok (.tltiu Register.t1 0xFFFF) := by
  decide

/-- R252 to R257: TEQI, TNEI, BLTZAL, BGEZAL, BLTZALL, BGEZALL. -/
theorem test_decode_regimm_2 :
    decode 0x052CFFFF#32 = .ok (.teqi Register.t1 0xFFFF) ∧
    decode 0x052EFFFF#32 = .ok (.tnei Register.t1 0xFFFF) ∧
    decode 0x05300004#32 = .ok (.bltzal Register.t1 0x0004) ∧
    decode 0x05310004#32 = .ok (.bgezal Register.t1 0x0004) ∧
    decode 0x05320004#32 = .ok (.bltzall Register.t1 0x0004) ∧
    decode 0x05330004#32 = .ok (.bgezall Register.t1 0x0004) := by
  decide

/-! The `UnknownEncoding` rows of 95_test_vectors.md section 3, and its two words for the check order (R70). -/

theorem test_unknown_encoding_1 :
    decode 0x00000001#32 = .unknownEncoding .func 1 ∧
    decode 0x0000000A#32 = .unknownEncoding .func 10 ∧
    decode 0x00000028#32 = .unknownEncoding .func 40 ∧
    decode 0x40000000#32 = .unknownEncoding .opcode 16 ∧
    decode 0x48000000#32 = .unknownEncoding .opcode 18 ∧
    decode 0x4C000000#32 = .unknownEncoding .opcode 19 ∧
    decode 0x70000000#32 = .unknownEncoding .opcode 28 ∧
    decode 0x7C000000#32 = .unknownEncoding .opcode 31 := by
  decide

theorem test_unknown_encoding_2 :
    decode 0xBC000000#32 = .unknownEncoding .opcode 47 ∧
    decode 0xCC000000#32 = .unknownEncoding .opcode 51 ∧
    decode 0x04040004#32 = .unknownEncoding .regimm 4 ∧
    decode 0x041F0000#32 = .unknownEncoding .regimm 31 ∧
    decode 0x46600000#32 = .unknownEncoding .fmt 19 ∧
    decode 0x46000010#32 = .unknownEncoding .cop1Func 16 ∧
    decode 0x46E00000#32 = .unknownEncoding .fmt 23 ∧
    decode 0x4660003F#32 = .unknownEncoding .fmt 19 := by
  decide

theorem test_unknown_encoding_3 :
    decode 0x7C00003F#32 = .unknownEncoding .opcode 31 := by
  decide

/-- Fields not checked (V-DEC2, V-DEC7, V-DEC21, V-DEC25, V-DEC29, V-DEC31, V-DEC34; R74). -/
theorem test_decode_unchecked :
    decode 0xFFFFFFFF#32 = .ok (.sd Register.ra Register.ra 0xFFFF) ∧
    decode 0x012A47E0#32 = .ok (.add Register.t1 Register.t2 Register.t0 31) ∧
    decode 0x0BFFFFFF#32 = .ok (.j 67108863) ∧
    decode 0x46841000#32 = .ok (.addFmt .w 4 2 0) ∧
    decode 0x4408103F#32 = .ok (.mfc1 8 2 0 63) ∧
    decode 0x451D0004#32 = .ok (.bc1t 7 4) ∧
    decode 0x460000FF#32 = .ok (.cNgtFmt .s 0 0 3) := by
  decide

/-- V-DEC31: the shape keeps all five bits of `ft`, and `nd`, `tf` (R60). -/
theorem test_shape_bc : decodeShape 0x451D0004#32 = .ok (.fr .bc 29 0 0 (.raw 4) (some false) (some true)) := by decide

/-- V-DEC18: a REGIMM shape keeps `rt`, both immediates and the code's name (R61). -/
theorem test_shape_regimm : decodeShape 0x0411FFFF#32 =
    .ok (.i .regimm Register.zero Register.s1 0xFFFFFFFF 0xFFFF (some .bgezal)) := by decide

/-- The `decode_all` example of 95_test_vectors.md section 3, and the refused index. -/
theorem test_decode_all :
    decodeAll [0x012A4020#32, 0x7C000000#32, 0x0800001E#32] =
      [.ok (.add Register.t1 Register.t2 Register.t0 0), .unknownEncoding .opcode 31, .ok (.j 30)] ∧
    decodeAt [0x012A4020#32, 0x7C000000#32, 0x0800001E#32] 3 = .error .indexOutOfRange ∧
    decodeAt [0x012A4020#32] (-1) = .error .indexOutOfRange := by
  decide

/-- S1, S2, S3 and the `extract` domain of 95_test_vectors.md. -/
theorem test_extract :
    extract 0x80000000#32 31 0 true = .ok (-2147483648) ∧ extract 0x2204FFFF#32 31 0 true = .ok 570753023 ∧
    extract 0b10110#32 2 1 false = .ok 3 ∧ extract 0b1110#32 3 1 true = .ok (-1) ∧
    extract 1#32 0 1 false = .error .invalidRange ∧ extract 1#32 32 0 false = .error .invalidRange ∧
    extract 1#32 0 0 true = .ok (-1) ∧ extract 1#32 0 0 false = .ok 1 ∧ extract 0x80000000#32 31 31 false = .ok 1 := by
  decide

/-! The executed operations: the vectors of 95_test_vectors.md section 2, both settings of P_W32_HI. -/

/-- The named premise `INIT`, with the listed slots overwritten through an accessor. -/
def initial (l : List (Register × DWord)) : RegFile :=
  l.foldl (fun rf e => rf.write64 e.1 e.2) (RegFile.init (fun r => 0xA5A5A5A500000000#64 + BitVec.ofNat 64 r.val))

/-- `OK` with the listed slots changed and no other. -/
def changed (rf : RegFile) (l : List (Register × DWord)) : ExecResult :=
  .ok (l.foldl (fun rf e => rf.write64 e.1 e.2) rf)

/-- The V-ADD rows. -/
theorem test_op_add :
    opAdd .preserve Register.t1 Register.t2 Register.t0 (initial [(Register.t1, 0x0000000000000005#64), (Register.t2, 0x0000000000000007#64)]) =
      changed (initial [(Register.t1, 0x0000000000000005#64), (Register.t2, 0x0000000000000007#64)]) [(Register.t0, 0xA5A5A5A50000000C#64)] ∧
    opAdd .sext Register.t1 Register.t2 Register.t0 (initial [(Register.t1, 0x0000000000000005#64), (Register.t2, 0x0000000000000007#64)]) =
      changed (initial [(Register.t1, 0x0000000000000005#64), (Register.t2, 0x0000000000000007#64)]) [(Register.t0, 0x000000000000000C#64)] ∧
    opAdd .preserve Register.t1 Register.t2 Register.t0 (initial [(Register.t1, 0x000000007FFFFFFF#64), (Register.t2, 0x0000000000000001#64)]) =
      .overflowFault ∧
    opAdd .sext Register.t1 Register.t2 Register.t0 (initial [(Register.t1, 0x000000007FFFFFFF#64), (Register.t2, 0x0000000000000001#64)]) =
      .overflowFault ∧
    opAdd .preserve Register.t1 Register.t2 Register.t0 (initial [(Register.t1, 0x0000000080000000#64), (Register.t2, 0x00000000FFFFFFFF#64)]) =
      .overflowFault ∧
    opAdd .sext Register.t1 Register.t2 Register.t0 (initial [(Register.t1, 0x0000000080000000#64), (Register.t2, 0x00000000FFFFFFFF#64)]) =
      .overflowFault ∧
    opAdd .preserve Register.t1 Register.t2 Register.t0 (initial [(Register.t1, 0x000000007FFFFFFF#64), (Register.t2, 0x0000000080000000#64)]) =
      changed (initial [(Register.t1, 0x000000007FFFFFFF#64), (Register.t2, 0x0000000080000000#64)]) [(Register.t0, 0xA5A5A5A5FFFFFFFF#64)] ∧
    opAdd .sext Register.t1 Register.t2 Register.t0 (initial [(Register.t1, 0x000000007FFFFFFF#64), (Register.t2, 0x0000000080000000#64)]) =
      changed (initial [(Register.t1, 0x000000007FFFFFFF#64), (Register.t2, 0x0000000080000000#64)]) [(Register.t0, 0xFFFFFFFFFFFFFFFF#64)] ∧
    opAdd .preserve Register.t1 Register.t2 Register.t0 (initial [(Register.t1, 0xFFFFFFFF00000001#64), (Register.t2, 0x1234567800000002#64)]) =
      changed (initial [(Register.t1, 0xFFFFFFFF00000001#64), (Register.t2, 0x1234567800000002#64)]) [(Register.t0, 0xA5A5A5A500000003#64)] ∧
    opAdd .sext Register.t1 Register.t2 Register.t0 (initial [(Register.t1, 0xFFFFFFFF00000001#64), (Register.t2, 0x1234567800000002#64)]) =
      changed (initial [(Register.t1, 0xFFFFFFFF00000001#64), (Register.t2, 0x1234567800000002#64)]) [(Register.t0, 0x0000000000000003#64)] ∧
    opAdd .preserve Register.t1 Register.t2 Register.zero (initial [(Register.t1, 0x0000000000000001#64), (Register.t2, 0x0000000000000002#64)]) =
      changed (initial [(Register.t1, 0x0000000000000001#64), (Register.t2, 0x0000000000000002#64)]) [] ∧
    opAdd .sext Register.t1 Register.t2 Register.zero (initial [(Register.t1, 0x0000000000000001#64), (Register.t2, 0x0000000000000002#64)]) =
      changed (initial [(Register.t1, 0x0000000000000001#64), (Register.t2, 0x0000000000000002#64)]) [] ∧
    opAdd .preserve Register.t0 Register.t0 Register.t0 (initial [(Register.t0, 0x0000000040000000#64)]) =
      .overflowFault ∧
    opAdd .sext Register.t0 Register.t0 Register.t0 (initial [(Register.t0, 0x0000000040000000#64)]) =
      .overflowFault ∧
    opAdd .preserve Register.t1 Register.t2 Register.t0 (initial [(Register.t1, 0x00000000FFFFFFFE#64), (Register.t2, 0x00000000FFFFFFFF#64)]) =
      changed (initial [(Register.t1, 0x00000000FFFFFFFE#64), (Register.t2, 0x00000000FFFFFFFF#64)]) [(Register.t0, 0xA5A5A5A5FFFFFFFD#64)] ∧
    opAdd .sext Register.t1 Register.t2 Register.t0 (initial [(Register.t1, 0x00000000FFFFFFFE#64), (Register.t2, 0x00000000FFFFFFFF#64)]) =
      changed (initial [(Register.t1, 0x00000000FFFFFFFE#64), (Register.t2, 0x00000000FFFFFFFF#64)]) [(Register.t0, 0xFFFFFFFFFFFFFFFD#64)] := by
  decide

/-- The V-ADDI rows. -/
theorem test_op_addi :
    opAddi .preserve Register.s0 Register.a0 0xFFFF (initial [(Register.s0, 0x0000000000000000#64)]) =
      changed (initial [(Register.s0, 0x0000000000000000#64)]) [(Register.a0, 0xA5A5A5A5FFFFFFFF#64)] ∧
    opAddi .sext Register.s0 Register.a0 0xFFFF (initial [(Register.s0, 0x0000000000000000#64)]) =
      changed (initial [(Register.s0, 0x0000000000000000#64)]) [(Register.a0, 0xFFFFFFFFFFFFFFFF#64)] ∧
    opAddi .preserve Register.s0 Register.a0 0xFFFF (initial [(Register.s0, 0x0000000080000000#64)]) =
      .overflowFault ∧
    opAddi .sext Register.s0 Register.a0 0xFFFF (initial [(Register.s0, 0x0000000080000000#64)]) =
      .overflowFault ∧
    opAddi .preserve Register.t1 Register.t0 0x0001 (initial [(Register.t1, 0x000000007FFFFFFF#64)]) =
      .overflowFault ∧
    opAddi .sext Register.t1 Register.t0 0x0001 (initial [(Register.t1, 0x000000007FFFFFFF#64)]) =
      .overflowFault ∧
    opAddi .preserve Register.t1 Register.t0 0x8000 (initial [(Register.t1, 0x0000000000008000#64)]) =
      changed (initial [(Register.t1, 0x0000000000008000#64)]) [(Register.t0, 0xA5A5A5A500000000#64)] ∧
    opAddi .sext Register.t1 Register.t0 0x8000 (initial [(Register.t1, 0x0000000000008000#64)]) =
      changed (initial [(Register.t1, 0x0000000000008000#64)]) [(Register.t0, 0x0000000000000000#64)] := by
  decide

/-- The V-ADDU rows. -/
theorem test_op_addu :
    opAddu .preserve Register.t1 Register.t2 Register.t0 (initial [(Register.t1, 0x00000000FFFFFFFF#64), (Register.t2, 0x00000000000003D5#64)]) =
      changed (initial [(Register.t1, 0x00000000FFFFFFFF#64), (Register.t2, 0x00000000000003D5#64)]) [(Register.t0, 0xA5A5A5A5000003D4#64)] ∧
    opAddu .sext Register.t1 Register.t2 Register.t0 (initial [(Register.t1, 0x00000000FFFFFFFF#64), (Register.t2, 0x00000000000003D5#64)]) =
      changed (initial [(Register.t1, 0x00000000FFFFFFFF#64), (Register.t2, 0x00000000000003D5#64)]) [(Register.t0, 0x00000000000003D4#64)] ∧
    opAddu .preserve Register.t1 Register.t2 Register.t0 (initial [(Register.t1, 0x000000007FFFFFFF#64), (Register.t2, 0x0000000000000001#64)]) =
      changed (initial [(Register.t1, 0x000000007FFFFFFF#64), (Register.t2, 0x0000000000000001#64)]) [(Register.t0, 0xA5A5A5A580000000#64)] ∧
    opAddu .sext Register.t1 Register.t2 Register.t0 (initial [(Register.t1, 0x000000007FFFFFFF#64), (Register.t2, 0x0000000000000001#64)]) =
      changed (initial [(Register.t1, 0x000000007FFFFFFF#64), (Register.t2, 0x0000000000000001#64)]) [(Register.t0, 0xFFFFFFFF80000000#64)] ∧
    opAddu .preserve Register.t1 Register.t2 Register.t0 (initial [(Register.t1, 0x00000000FFFFFFFF#64), (Register.t2, 0x0000000000000001#64)]) =
      changed (initial [(Register.t1, 0x00000000FFFFFFFF#64), (Register.t2, 0x0000000000000001#64)]) [(Register.t0, 0xA5A5A5A500000000#64)] ∧
    opAddu .sext Register.t1 Register.t2 Register.t0 (initial [(Register.t1, 0x00000000FFFFFFFF#64), (Register.t2, 0x0000000000000001#64)]) =
      changed (initial [(Register.t1, 0x00000000FFFFFFFF#64), (Register.t2, 0x0000000000000001#64)]) [(Register.t0, 0x0000000000000000#64)] := by
  decide

/-- The V-ADDIU rows. -/
theorem test_op_addiu :
    opAddiu .preserve Register.t1 Register.t0 0xFFFF (initial [(Register.t1, 0x0000000000000001#64)]) =
      changed (initial [(Register.t1, 0x0000000000000001#64)]) [(Register.t0, 0xA5A5A5A500010000#64)] ∧
    opAddiu .sext Register.t1 Register.t0 0xFFFF (initial [(Register.t1, 0x0000000000000001#64)]) =
      changed (initial [(Register.t1, 0x0000000000000001#64)]) [(Register.t0, 0x0000000000010000#64)] ∧
    opAddiu .preserve Register.zero Register.t0 0xFFFF (initial []) =
      changed (initial []) [(Register.t0, 0xA5A5A5A50000FFFF#64)] ∧
    opAddiu .sext Register.zero Register.t0 0xFFFF (initial []) =
      changed (initial []) [(Register.t0, 0x000000000000FFFF#64)] ∧
    opAddiu .preserve Register.t1 Register.t0 0x0001 (initial [(Register.t1, 0x00000000FFFFFFFF#64)]) =
      changed (initial [(Register.t1, 0x00000000FFFFFFFF#64)]) [(Register.t0, 0xA5A5A5A500000000#64)] ∧
    opAddiu .sext Register.t1 Register.t0 0x0001 (initial [(Register.t1, 0x00000000FFFFFFFF#64)]) =
      changed (initial [(Register.t1, 0x00000000FFFFFFFF#64)]) [(Register.t0, 0x0000000000000000#64)] := by
  decide

/-- The V-DADD rows. -/
theorem test_op_dadd :
    opDadd Register.t1 Register.t2 Register.t0 (initial [(Register.t1, 0x000000007FFFFFFF#64), (Register.t2, 0x000000007FFFFFFF#64)]) =
      changed (initial [(Register.t1, 0x000000007FFFFFFF#64), (Register.t2, 0x000000007FFFFFFF#64)]) [(Register.t0, 0x00000000FFFFFFFE#64)] ∧
    opDadd Register.t1 Register.t2 Register.t0 (initial [(Register.t1, 0x7FFFFFFFFFFFFFFF#64), (Register.t2, 0x0000000000000001#64)]) =
      .overflowFault ∧
    opDadd Register.t1 Register.t2 Register.t0 (initial [(Register.t1, 0x8000000000000000#64), (Register.t2, 0xFFFFFFFFFFFFFFFF#64)]) =
      .overflowFault ∧
    opDadd Register.t1 Register.t2 Register.t0 (initial [(Register.t1, 0x7FFFFFFFFFFFFFFF#64), (Register.t2, 0x8000000000000000#64)]) =
      changed (initial [(Register.t1, 0x7FFFFFFFFFFFFFFF#64), (Register.t2, 0x8000000000000000#64)]) [(Register.t0, 0xFFFFFFFFFFFFFFFF#64)] := by
  decide

/-- The V-DADDI rows. -/
theorem test_op_daddi :
    opDaddi Register.t1 Register.t0 0xFFFF (initial [(Register.t1, 0x0000000000000000#64)]) =
      changed (initial [(Register.t1, 0x0000000000000000#64)]) [(Register.t0, 0xFFFFFFFFFFFFFFFF#64)] ∧
    opDaddi Register.t1 Register.t0 0xFFFF (initial [(Register.t1, 0x8000000000000000#64)]) =
      .overflowFault ∧
    opDaddi Register.t1 Register.t0 0x0001 (initial [(Register.t1, 0x00000000FFFFFFFF#64)]) =
      changed (initial [(Register.t1, 0x00000000FFFFFFFF#64)]) [(Register.t0, 0x0000000100000000#64)] := by
  decide

/-- The V-DADDU rows. -/
theorem test_op_daddu :
    opDaddu Register.t1 Register.t2 Register.t0 (initial [(Register.t1, 0xFFFFFFFFFFFFFFFF#64), (Register.t2, 0x0000000000000002#64)]) =
      changed (initial [(Register.t1, 0xFFFFFFFFFFFFFFFF#64), (Register.t2, 0x0000000000000002#64)]) [(Register.t0, 0x0000000000000001#64)] ∧
    opDaddu Register.t1 Register.t2 Register.t0 (initial [(Register.t1, 0x7FFFFFFFFFFFFFFF#64), (Register.t2, 0x0000000000000001#64)]) =
      changed (initial [(Register.t1, 0x7FFFFFFFFFFFFFFF#64), (Register.t2, 0x0000000000000001#64)]) [(Register.t0, 0x8000000000000000#64)] := by
  decide

/-- The V-DADDIU rows. -/
theorem test_op_daddiu :
    opDaddiu Register.t1 Register.t0 0xFFFF (initial [(Register.t1, 0x0000000000000000#64)]) =
      changed (initial [(Register.t1, 0x0000000000000000#64)]) [(Register.t0, 0x000000000000FFFF#64)] ∧
    opDaddiu Register.t1 Register.t0 0x0001 (initial [(Register.t1, 0xFFFFFFFFFFFFFFFF#64)]) =
      changed (initial [(Register.t1, 0xFFFFFFFFFFFFFFFF#64)]) [(Register.t0, 0x0000000000000000#64)] := by
  decide

/-- The V-DIV rows (the draw of a division by zero is any value, here one written out). -/
theorem test_op_div :
    opDiv .preserve 0x0123456789ABCDEF Register.t1 Register.t2 (initial [(Register.t1, 0x0000000000000007#64), (Register.t2, 0x0000000000000002#64)]) =
      changed (initial [(Register.t1, 0x0000000000000007#64), (Register.t2, 0x0000000000000002#64)]) [(Register.lo, 0xA5A5A5A500000003#64), (Register.hi, 0xA5A5A5A500000001#64)] ∧
    opDiv .sext 0x0123456789ABCDEF Register.t1 Register.t2 (initial [(Register.t1, 0x0000000000000007#64), (Register.t2, 0x0000000000000002#64)]) =
      changed (initial [(Register.t1, 0x0000000000000007#64), (Register.t2, 0x0000000000000002#64)]) [(Register.lo, 0x0000000000000003#64), (Register.hi, 0x0000000000000001#64)] ∧
    opDiv .preserve 0x0123456789ABCDEF Register.t1 Register.t2 (initial [(Register.t1, 0x00000000FFFFFFF9#64), (Register.t2, 0x0000000000000002#64)]) =
      changed (initial [(Register.t1, 0x00000000FFFFFFF9#64), (Register.t2, 0x0000000000000002#64)]) [(Register.lo, 0xA5A5A5A5FFFFFFFD#64), (Register.hi, 0xA5A5A5A5FFFFFFFF#64)] ∧
    opDiv .sext 0x0123456789ABCDEF Register.t1 Register.t2 (initial [(Register.t1, 0x00000000FFFFFFF9#64), (Register.t2, 0x0000000000000002#64)]) =
      changed (initial [(Register.t1, 0x00000000FFFFFFF9#64), (Register.t2, 0x0000000000000002#64)]) [(Register.lo, 0xFFFFFFFFFFFFFFFD#64), (Register.hi, 0xFFFFFFFFFFFFFFFF#64)] ∧
    opDiv .preserve 0x0123456789ABCDEF Register.t1 Register.t2 (initial [(Register.t1, 0x0000000000000007#64), (Register.t2, 0x00000000FFFFFFFE#64)]) =
      changed (initial [(Register.t1, 0x0000000000000007#64), (Register.t2, 0x00000000FFFFFFFE#64)]) [(Register.lo, 0xA5A5A5A5FFFFFFFD#64), (Register.hi, 0xA5A5A5A500000001#64)] ∧
    opDiv .sext 0x0123456789ABCDEF Register.t1 Register.t2 (initial [(Register.t1, 0x0000000000000007#64), (Register.t2, 0x00000000FFFFFFFE#64)]) =
      changed (initial [(Register.t1, 0x0000000000000007#64), (Register.t2, 0x00000000FFFFFFFE#64)]) [(Register.lo, 0xFFFFFFFFFFFFFFFD#64), (Register.hi, 0x0000000000000001#64)] ∧
    opDiv .preserve 0x0123456789ABCDEF Register.t1 Register.t2 (initial [(Register.t1, 0x00000000FFFFFFF9#64), (Register.t2, 0x00000000FFFFFFFE#64)]) =
      changed (initial [(Register.t1, 0x00000000FFFFFFF9#64), (Register.t2, 0x00000000FFFFFFFE#64)]) [(Register.lo, 0xA5A5A5A500000003#64), (Register.hi, 0xA5A5A5A5FFFFFFFF#64)] ∧
    opDiv .sext 0x0123456789ABCDEF Register.t1 Register.t2 (initial [(Register.t1, 0x00000000FFFFFFF9#64), (Register.t2, 0x00000000FFFFFFFE#64)]) =
      changed (initial [(Register.t1, 0x00000000FFFFFFF9#64), (Register.t2, 0x00000000FFFFFFFE#64)]) [(Register.lo, 0x0000000000000003#64), (Register.hi, 0xFFFFFFFFFFFFFFFF#64)] ∧
    opDiv .preserve 0x0123456789ABCDEF Register.t1 Register.t2 (initial [(Register.t1, 0x0000000080000000#64), (Register.t2, 0x00000000FFFFFFFF#64)]) =
      changed (initial [(Register.t1, 0x0000000080000000#64), (Register.t2, 0x00000000FFFFFFFF#64)]) [(Register.lo, 0xA5A5A5A580000000#64), (Register.hi, 0xA5A5A5A500000000#64)] ∧
    opDiv .sext 0x0123456789ABCDEF Register.t1 Register.t2 (initial [(Register.t1, 0x0000000080000000#64), (Register.t2, 0x00000000FFFFFFFF#64)]) =
      changed (initial [(Register.t1, 0x0000000080000000#64), (Register.t2, 0x00000000FFFFFFFF#64)]) [(Register.lo, 0xFFFFFFFF80000000#64), (Register.hi, 0x0000000000000000#64)] ∧
    opDiv .preserve 0x0123456789ABCDEF Register.t1 Register.t2 (initial [(Register.t1, 0x00000000FFFFFFF9#64), (Register.t2, 0x0000000000000000#64)]) =
      changed (initial [(Register.t1, 0x00000000FFFFFFF9#64), (Register.t2, 0x0000000000000000#64)]) [(Register.lo, 0xA5A5A5A5FFFFFFF9#64), (Register.hi, 0x0123456789ABCDEF#64)] ∧
    opDiv .sext 0x0123456789ABCDEF Register.t1 Register.t2 (initial [(Register.t1, 0x00000000FFFFFFF9#64), (Register.t2, 0x0000000000000000#64)]) =
      changed (initial [(Register.t1, 0x00000000FFFFFFF9#64), (Register.t2, 0x0000000000000000#64)]) [(Register.lo, 0xFFFFFFFFFFFFFFF9#64), (Register.hi, 0x0123456789ABCDEF#64)] ∧
    opDiv .preserve 0x0123456789ABCDEF Register.t1 Register.t1 (initial [(Register.t1, 0x0000000012345678#64)]) =
      changed (initial [(Register.t1, 0x0000000012345678#64)]) [(Register.lo, 0xA5A5A5A500000001#64), (Register.hi, 0xA5A5A5A500000000#64)] ∧
    opDiv .sext 0x0123456789ABCDEF Register.t1 Register.t1 (initial [(Register.t1, 0x0000000012345678#64)]) =
      changed (initial [(Register.t1, 0x0000000012345678#64)]) [(Register.lo, 0x0000000000000001#64), (Register.hi, 0x0000000000000000#64)] := by
  decide

/-- The V-DIVU rows (the draw of a division by zero is any value, here one written out). -/
theorem test_op_divu :
    opDivu .preserve 0x0123456789ABCDEF Register.t1 Register.t2 (initial [(Register.t1, 0x00000000FFFFFFF9#64), (Register.t2, 0x0000000000000002#64)]) =
      changed (initial [(Register.t1, 0x00000000FFFFFFF9#64), (Register.t2, 0x0000000000000002#64)]) [(Register.lo, 0xA5A5A5A57FFFFFFC#64), (Register.hi, 0xA5A5A5A500000001#64)] ∧
    opDivu .sext 0x0123456789ABCDEF Register.t1 Register.t2 (initial [(Register.t1, 0x00000000FFFFFFF9#64), (Register.t2, 0x0000000000000002#64)]) =
      changed (initial [(Register.t1, 0x00000000FFFFFFF9#64), (Register.t2, 0x0000000000000002#64)]) [(Register.lo, 0x000000007FFFFFFC#64), (Register.hi, 0x0000000000000001#64)] ∧
    opDivu .preserve 0x0123456789ABCDEF Register.t1 Register.t2 (initial [(Register.t1, 0x0000000000000005#64), (Register.t2, 0x0000000000000000#64)]) =
      changed (initial [(Register.t1, 0x0000000000000005#64), (Register.t2, 0x0000000000000000#64)]) [(Register.lo, 0xA5A5A5A500000005#64), (Register.hi, 0x0123456789ABCDEF#64)] ∧
    opDivu .sext 0x0123456789ABCDEF Register.t1 Register.t2 (initial [(Register.t1, 0x0000000000000005#64), (Register.t2, 0x0000000000000000#64)]) =
      changed (initial [(Register.t1, 0x0000000000000005#64), (Register.t2, 0x0000000000000000#64)]) [(Register.lo, 0x0000000000000005#64), (Register.hi, 0x0123456789ABCDEF#64)] ∧
    opDivu .preserve 0x0123456789ABCDEF Register.t1 Register.t2 (initial [(Register.t1, 0x0000000000000003#64), (Register.t2, 0x000000000000000A#64)]) =
      changed (initial [(Register.t1, 0x0000000000000003#64), (Register.t2, 0x000000000000000A#64)]) [(Register.lo, 0xA5A5A5A500000000#64), (Register.hi, 0xA5A5A5A500000003#64)] ∧
    opDivu .sext 0x0123456789ABCDEF Register.t1 Register.t2 (initial [(Register.t1, 0x0000000000000003#64), (Register.t2, 0x000000000000000A#64)]) =
      changed (initial [(Register.t1, 0x0000000000000003#64), (Register.t2, 0x000000000000000A#64)]) [(Register.lo, 0x0000000000000000#64), (Register.hi, 0x0000000000000003#64)] := by
  decide

/-- The V-DDIV rows (the draw of a division by zero is any value, here one written out). -/
theorem test_op_ddiv :
    opDdiv 0x0123456789ABCDEF Register.t1 Register.t2 (initial [(Register.t1, 0xFFFFFFFFFFFFFFF9#64), (Register.t2, 0x0000000000000002#64)]) =
      changed (initial [(Register.t1, 0xFFFFFFFFFFFFFFF9#64), (Register.t2, 0x0000000000000002#64)]) [(Register.lo, 0xFFFFFFFFFFFFFFFD#64), (Register.hi, 0xFFFFFFFFFFFFFFFF#64)] ∧
    opDdiv 0x0123456789ABCDEF Register.t1 Register.t2 (initial [(Register.t1, 0x8000000000000000#64), (Register.t2, 0xFFFFFFFFFFFFFFFF#64)]) =
      changed (initial [(Register.t1, 0x8000000000000000#64), (Register.t2, 0xFFFFFFFFFFFFFFFF#64)]) [(Register.lo, 0x8000000000000000#64), (Register.hi, 0x0000000000000000#64)] ∧
    opDdiv 0x0123456789ABCDEF Register.t1 Register.t2 (initial [(Register.t1, 0x8000000000000000#64), (Register.t2, 0x0000000000000000#64)]) =
      changed (initial [(Register.t1, 0x8000000000000000#64), (Register.t2, 0x0000000000000000#64)]) [(Register.lo, 0x8000000000000000#64), (Register.hi, 0x0123456789ABCDEF#64)] := by
  decide

/-- The V-DDIVU rows (the draw of a division by zero is any value, here one written out). -/
theorem test_op_ddivu :
    opDdivu 0x0123456789ABCDEF Register.t1 Register.t2 (initial [(Register.t1, 0xFFFFFFFFFFFFFFF9#64), (Register.t2, 0x0000000000000002#64)]) =
      changed (initial [(Register.t1, 0xFFFFFFFFFFFFFFF9#64), (Register.t2, 0x0000000000000002#64)]) [(Register.lo, 0x7FFFFFFFFFFFFFFC#64), (Register.hi, 0x0000000000000001#64)] ∧
    opDdivu 0x0123456789ABCDEF Register.t1 Register.t2 (initial [(Register.t1, 0xFFFFFFFFFFFFFFFF#64), (Register.t2, 0xFFFFFFFFFFFFFFFF#64)]) =
      changed (initial [(Register.t1, 0xFFFFFFFFFFFFFFFF#64), (Register.t2, 0xFFFFFFFFFFFFFFFF#64)]) [(Register.lo, 0x0000000000000001#64), (Register.hi, 0x0000000000000000#64)] ∧
    opDdivu 0x0123456789ABCDEF Register.t1 Register.t2 (initial [(Register.t1, 0x000000000000002A#64), (Register.t2, 0x0000000000000000#64)]) =
      changed (initial [(Register.t1, 0x000000000000002A#64), (Register.t2, 0x0000000000000000#64)]) [(Register.lo, 0x000000000000002A#64), (Register.hi, 0x0123456789ABCDEF#64)] := by
  decide

/-! Register File views: V-RF1 to V-RF6. -/

theorem test_views :
    ((initial [(Register.t0, 0x1111111122222222#64)]).writeUnsigned32Lo Register.t0 0xAAAAAAAA).1.read Register.t0 =
      0x11111111AAAAAAAA#64 ∧
    ((initial [(Register.t0, 0x1111111122222222#64)]).writeUnsigned32Lo Register.t0 0xAAAAAAAA).1.readSigned32Lo
      Register.t0 = -1431655766 ∧
    ((initial [(Register.t0, 0x1111111122222222#64)]).writeSigned32Hi Register.t0 0xFFFFFFFF).1.readSigned64 Register.t0 =
      -3722304990 ∧
    (initial [(Register.t0, 0x00000000FFFFFFFF#64)]).readSigned32Lo Register.t0 = -1 ∧
    (initial [(Register.t0, 0x00000000FFFFFFFF#64)]).readSigned64 Register.t0 = 4294967295 ∧
    (initial []).writeSigned64 Register.zero 5 = (initial [], 0) := by
  decide

/-! The driver: one step each (R277). -/

/-- A run of one word from `INIT` with the listed slots. -/
def oneWord (w : Word) (l : List (Register × DWord)) : State :=
  { rf := initial l, words := [w], k := 0, status := .running, seqs := [], draws := 0 }

/-- S7b: the overflow of `add t0, t1, t2` halts the run at its instruction, and the Register File stays. -/
theorem test_step_overflow :
    step (oneWord 0x012A4020 [(Register.t1, 0x7FFFFFFF), (Register.t2, 1)]) =
      .next (Overflowed (oneWord 0x012A4020 [(Register.t1, 0x7FFFFFFF), (Register.t2, 1)])) := rfl

/-- V-DADDU1: the step retires, and the next one ends the run. -/
theorem test_step_daddu :
    ∃ t, step (oneWord 0x012A402D [(Register.t1, 0xFFFFFFFFFFFFFFFF), (Register.t2, 2)]) = .next t ∧
      t.rf.read Register.t0 = 1 ∧ t.k = 1 ∧ t.status = .running ∧ step t = .next { t with status := .done } :=
  ⟨_, rfl, rfl, rfl, rfl, rfl⟩

/-- V-DEC3: SYSCALL raises no exception; it is refused (R271). -/
theorem test_step_syscall :
    step (oneWord 0x0000000C []) = .next (Refused (.syscall 0 0 0 0) (oneWord 0x0000000C [])) := rfl

/-- V-DEC8: a COP0 word. -/
theorem test_step_unknown :
    step (oneWord 0x40000000 []) =
      .next { oneWord 0x40000000 [] with status := .halted (.fault (.unknownEncoding .opcode 16)) } := rfl

/-- V-DIVU2 and V-DDIVU3: a division by zero takes one draw, and any draw is possible. -/
theorem test_step_division_by_zero :
    ∃ t, step (oneWord 0x012A001F [(Register.t1, 0x2A), (Register.t2, 0)]) = .next t ∧
      t.rf.read Register.lo = 0x2A ∧ t.draws = 1 ∧ t.k = 1 ∧ t.status = .running :=
  ⟨_, rfl, rfl, rfl, rfl, rfl⟩

/-- A table row's word becomes the next instruction, at reset and in a longer program. -/
theorem test_with_fetch_word :
    fetch (State.reset.withFetchWord 32 0x012A4020) = .execute (.add Register.t1 Register.t2 Register.t0 0) ∧
    ({ State.reset with words := [1, 2, 3], k := 1 }.withFetchWord 32 0x0800001E).words = [1, 0x0800001E, 3] :=
  ⟨rfl, rfl⟩

theorem test_decode_table_word :
    decodeTableWord 32 0x2204FFFF = some (.addi Register.s0 Register.a0 0xFFFF) ∧ decodeTableWord 32 0x40000000 = none := by
  decide

/-! Witnesses: values that meet the hypotheses of each obligation that has some, clause by clause. -/

/-- A one-bit field and the whole word are the two ends of the domain. -/
theorem test_wit_ExtractReadsField : (31 ≤ 31 ∧ (31 : Nat) ≤ 31) ∧ (0 ≤ 31 ∧ (31 : Nat) ≤ 31) ∧
    extract 0x80000000#32 31 31 true = .ok (-1) ∧ extract 0x80000000#32 31 0 false = .ok 2147483648 := by decide

theorem test_wit_DecodeOfEncode :
    (Instr.add Register.ra Register.t2 Register.t0 31).wellFormed = true ∧
    (Instr.bc1t 7 0xFFFF).wellFormed = true ∧ encode (.bc1t 7 0xFFFF) = 0x451DFFFF#32 ∧
    (Instr.bgezall Register.t1 4).wellFormed = true ∧ encode (.bgezall Register.t1 4) = 0x05330004#32 := by decide

theorem test_wit_EncodeOfDecode :
    decode 0x3C0A1234#32 = .ok (.lui Register.zero Register.t2 0x1234) ∧
    encode (.lui Register.zero Register.t2 0x1234) = 0x3C0A1234#32 := by decide

theorem test_wit_FormatByOpcode :
    decode 0x012A4020#32 = .ok (.add Register.t1 Register.t2 Register.t0 0) ∧
    decode 0x46041000#32 = .ok (.addFmt .s 4 2 0) ∧ decode 0x0C000000#32 = .ok (.jal 0) ∧
    decode 0xFFFFFFFF#32 = .ok (.sd Register.ra Register.ra 0xFFFF) := by decide

theorem test_wit_DecodesRFields :
    (0x012A47E0#32).extractLsb' 26 6 = 0 ∧ RFunc.lookup ((0x012A47E0#32).extractLsb' 0 6) = some .add ∧
    RFunc.lookup 0x00#6 = some .sll ∧ RFunc.lookup 0x3F#6 = some .dsra32 := by decide

/-- One word per clause: a named function, an unknown function, a move format, BC. -/
theorem test_wit_DecodesFrFields :
    (0x460000FF#32).extractLsb' 26 6 = 17 ∧ Cop1Fmt.lookup ((0x460000FF#32).extractLsb' 21 5) = some (.arith .s) ∧
    Cop1Func.lookup ((0x460000FF#32).extractLsb' 0 6) = some .cNgt ∧
    (0x46000010#32).extractLsb' 26 6 = 17 ∧ Cop1Fmt.lookup ((0x46000010#32).extractLsb' 21 5) = some (.arith .s) ∧
    Cop1Func.lookup ((0x46000010#32).extractLsb' 0 6) = none ∧
    (0x4408103F#32).extractLsb' 26 6 = 17 ∧ Cop1Fmt.lookup ((0x4408103F#32).extractLsb' 21 5) = some .mf ∧
    (0x451D0004#32).extractLsb' 26 6 = 17 ∧ Cop1Fmt.lookup ((0x451D0004#32).extractLsb' 21 5) = some .bc := by decide

theorem test_wit_DecodesJFields :
    (0x0BFFFFFF#32).extractLsb' 26 6 = 2 ∧ (0x0C000000#32).extractLsb' 26 6 = 3 := by decide

/-- One word per clause: a plain opcode, a REGIMM code of the set, one outside it. -/
theorem test_wit_DecodesIFields :
    Opcode.lookup ((0xFFFFFFFF#32).extractLsb' 26 6) = some (.i .sd) ∧
    Opcode.lookup ((0x0411FFFF#32).extractLsb' 26 6) = some (.i .regimm) ∧
    RegimmCode.lookup ((0x0411FFFF#32).extractLsb' 16 5) = some .bgezal ∧
    Opcode.lookup ((0x041F0000#32).extractLsb' 26 6) = some (.i .regimm) ∧
    RegimmCode.lookup ((0x041F0000#32).extractLsb' 16 5) = none := by decide

theorem test_wit_ImmediateForms :
    decode 0x8D2A8000#32 = .ok (.lw Register.t1 Register.t2 0x8000) ∧
    (Instr.lw Register.t1 Register.t2 0x8000).shape = .i .lw Register.t1 Register.t2 0xFFFF8000 0x8000 none ∧
    (0xFFFF8000#32).toInt = -32768 := by decide

/-- Two sequences asked in turns, one restarted by no call: at the start, at the last element, exhausted. -/
theorem test_wit_DecodeAllPosition :
    let s := (State.reset.decodeAllNew [0x012A4020, 0x40000000]).2
    let t := (s.decodeAllNew [0x012A4020]).2
    s.seqs[0]? = some { words := [0x012A4020, 0x40000000], pos := 0 } ∧ t.seqs.length = 2 ∧
    (t.takes [0, 1, 0, 1, 0]).1 =
      [(0, some (.ok (.add Register.t1 Register.t2 Register.t0 0))),
       (1, some (.ok (.add Register.t1 Register.t2 Register.t0 0))), (0, some (.unknownEncoding .opcode 16)),
       (1, none), (0, none)] ∧
    (t.takes [0, 1]).2.seqs.map DecodeSeq.pos = [1, 1] := by
  decide

/-- A call of `decode_all` between two requests leaves the first sequence where it was; a name no call gave has nothing. -/
theorem test_wit_DecodeAllInterleaved :
    let s := (State.reset.decodeAllNew [0x012A4020, 0x40000000]).2
    (∀ m ∈ [0, 0], m < s.seqs.length) ∧
    (((s.decodeAllNext 0).2.decodeAllNew [0x0800001E]).2.decodeAllNext 0).1 = some (.unknownEncoding .opcode 16) ∧
    s.decodeAllNext 1 = (none, s) := by
  decide

theorem test_wit_DecodeIndexPrecondition :
    (0 : Nat) < [0x012A4020#32].length ∧ ((decodeAll [0x012A4020#32])[0]? =
      some (.ok (.add Register.t1 Register.t2 Register.t0 0))) ∧ (decodeAll [0x40000000#32])[0]? =
      some (.unknownEncoding .opcode 16) := by decide

/-- `r0`, `lo` and `hi` among the registers written, and two different registers. -/
theorem test_wit_Write64Effect :
    (initial []).write64 Register.zero 1 = initial [] ∧ Register.hi ≠ Register.zero ∧ Register.lo ≠ Register.hi ∧
    ((initial []).write64 Register.hi 1).read Register.hi = 1 := by decide

theorem test_wit_Write32Effect :
    (initial []).write32 Register.zero .hi 1 = initial [] ∧ Register.lo ≠ Register.zero ∧ Register.hi ≠ Register.lo ∧
    ((initial []).write32 Register.lo .hi 1).read Register.lo = 0x0000000100000020 := by decide

theorem test_wit_WriteResult32Effect : Register.t1 ≠ Register.t0 ∧
    ((initial []).writeResult32 .preserve Register.t0 0x80000000).read Register.t0 = 0xA5A5A5A580000000 ∧
    ((initial []).writeResult32 .sext Register.t0 0x80000000).read Register.t0 = 0xFFFFFFFF80000000 := by decide

/-- The largest sum in range and the least out of it; the word of the encoding clause. -/
theorem test_wit_AddResult :
    (0x012A4020#32).extractLsb' 26 6 = 0 ∧ (0x012A4020#32).extractLsb' 0 6 = 0x20#6 ∧
    (let rf := initial [(Register.t1, 0x7FFFFFFE), (Register.t2, 1)];
      -2 ^ 31 ≤ (rf.readLo Register.t1).toInt + (rf.readLo Register.t2).toInt ∧
        (rf.readLo Register.t1).toInt + (rf.readLo Register.t2).toInt ≤ 2 ^ 31 - 1) ∧
    (let rf := initial [(Register.t1, 0x7FFFFFFF), (Register.t2, 1)];
      ¬ (rf.readLo Register.t1).toInt + (rf.readLo Register.t2).toInt ≤ 2 ^ 31 - 1) := by decide

theorem test_wit_AddiResult :
    (0x21288000#32).extractLsb' 26 6 = 0x08#6 ∧
    (let rf := initial [(Register.t1, 0x80008000)];
      -2 ^ 31 ≤ (rf.readLo Register.t1).toInt + (0x8000#16).toInt ∧
        (rf.readLo Register.t1).toInt + (0x8000#16).toInt ≤ 2 ^ 31 - 1) ∧
    (let rf := initial [(Register.t1, 0x80007FFF)];
      ¬ -2 ^ 31 ≤ (rf.readLo Register.t1).toInt + (0x8000#16).toInt) := by decide

theorem test_wit_AdduResult : (0x012A4021#32).extractLsb' 26 6 = 0 ∧ (0x012A4021#32).extractLsb' 0 6 = 0x21#6 := by decide

theorem test_wit_AddiuResult : (0x2528FFFF#32).extractLsb' 26 6 = 0x09#6 := by decide

theorem test_wit_DaddResult :
    (0x012A402C#32).extractLsb' 26 6 = 0 ∧ (0x012A402C#32).extractLsb' 0 6 = 0x2C#6 ∧
    (let rf := initial [(Register.t1, 0x8000000000000001), (Register.t2, 0xFFFFFFFFFFFFFFFF)];
      -2 ^ 63 ≤ (rf.read Register.t1).toInt + (rf.read Register.t2).toInt ∧
        (rf.read Register.t1).toInt + (rf.read Register.t2).toInt ≤ 2 ^ 63 - 1) ∧
    (let rf := initial [(Register.t1, 0x8000000000000000), (Register.t2, 0xFFFFFFFFFFFFFFFF)];
      ¬ -2 ^ 63 ≤ (rf.read Register.t1).toInt + (rf.read Register.t2).toInt) := by decide

theorem test_wit_DaddiResult :
    (0x6128FFFF#32).extractLsb' 26 6 = 0x18#6 ∧
    (let rf := initial [(Register.t1, 0x8000000000000001)];
      -2 ^ 63 ≤ (rf.read Register.t1).toInt + (0xFFFF#16).toInt ∧
        (rf.read Register.t1).toInt + (0xFFFF#16).toInt ≤ 2 ^ 63 - 1) ∧
    (let rf := initial [(Register.t1, 0x8000000000000000)];
      ¬ -2 ^ 63 ≤ (rf.read Register.t1).toInt + (0xFFFF#16).toInt) := by decide

theorem test_wit_DadduResult : (0x012A402D#32).extractLsb' 26 6 = 0 ∧ (0x012A402D#32).extractLsb' 0 6 = 0x2D#6 := by decide

theorem test_wit_DaddiuResult : (0x6528FFFF#32).extractLsb' 26 6 = 0x19#6 := by decide

/-- For the four division results, `DivisionLaw`, `DivisionByZero` and `UpperHalvesIgnored`: a divisor whose lo half alone
is zero, one that is zero at both widths, and one that is not. -/
theorem test_wit_DivResult :
    (0x012A001A#32).extractLsb' 26 6 = 0 ∧ (0x012A001A#32).extractLsb' 0 6 = 0x1A#6 ∧
    (0x012A001B#32).extractLsb' 0 6 = 0x1B#6 ∧ (0x012A001E#32).extractLsb' 0 6 = 0x1E#6 ∧
    (0x012A001F#32).extractLsb' 0 6 = 0x1F#6 ∧
    (let rf := initial [(Register.t1, 0x100000000), (Register.t2, 0), (Register.t0, 0x1FFFFFFFF)];
      rf.readLo Register.t1 = 0 ∧ rf.read Register.t1 ≠ 0 ∧ rf.readLo Register.t2 = 0 ∧ rf.read Register.t2 = 0 ∧
        rf.readLo Register.t0 ≠ 0 ∧ (rf.readLo Register.t0).toInt = -1) := by decide

theorem test_wit_DivisionQuotientWraps :
    (let rf := initial [(Register.t1, 0x80000000), (Register.t2, 0xFFFFFFFF)];
      rf.readLo Register.t1 = 0x80000000#32 ∧ rf.readLo Register.t2 = 0xFFFFFFFF#32) ∧
    (let rf := initial [(Register.t1, 0x8000000000000000), (Register.t2, 0xFFFFFFFFFFFFFFFF)];
      rf.read Register.t1 = 0x8000000000000000#64 ∧ rf.read Register.t2 = 0xFFFFFFFFFFFFFFFF#64) := by decide

theorem test_wit_UpperHalvesIgnored :
    let rf := initial [(Register.t1, 0x0000000100000005), (Register.t2, 0xFFFFFFFF00000002)]
    let rf' := initial [(Register.t1, 5), (Register.t2, 2)]
    rf'.readLo Register.t1 = rf.readLo Register.t1 ∧ rf'.readLo Register.t2 = rf.readLo Register.t2 ∧
      rf'.read Register.t1 ≠ rf.read Register.t1 ∧ rf'.read Register.t2 ≠ rf.read Register.t2 := by decide

/-- With destination `r0`, a sum in range and one out of it, at both widths (V-ADD6, S7a). -/
theorem test_wit_DestinationZero :
    (let rf := initial [(Register.t1, 0x7FFFFFFF)];
      (rf.readLo Register.t1).toInt + (rf.readLo Register.zero).toInt ≤ 2 ^ 31 - 1 ∧
        ¬ (rf.readLo Register.t1).toInt + (1#16).toInt ≤ 2 ^ 31 - 1) ∧
    (let rf := initial [(Register.t1, 0x7FFFFFFFFFFFFFFF)];
      (rf.read Register.t1).toInt + (rf.read Register.zero).toInt ≤ 2 ^ 63 - 1 ∧
        ¬ (rf.read Register.t1).toInt + (1#16).toInt ≤ 2 ^ 63 - 1) ∧
    opAddi .sext Register.t1 Register.zero 1 (initial [(Register.t1, 0x7FFFFFFF)]) = .overflowFault ∧
    opAdd .sext Register.t1 Register.zero Register.zero (initial []) = .ok (initial []) := by decide

/-- The hypotheses `exec i s = .next t` with `s` running: an addition that faults, one that completes, a refusal. -/
theorem test_wit_OverflowFaultRaisers :
    (∃ t, exec (.dadd Register.t1 Register.t2 Register.t0 0)
      (oneWord 0 [(Register.t1, 0x7FFFFFFFFFFFFFFF), (Register.t2, 1)]) = .next t ∧
        t.status = .halted (.fault .overflowFault)) ∧
    (∃ t, exec (.dadd Register.t1 Register.t2 Register.t0 0)
      (oneWord 0 [(Register.t1, 0x7FFFFFFFFFFFFFFE), (Register.t2, 1)]) = .next t ∧ t.status = .running) ∧
    (∃ t, exec (.teq Register.t1 Register.t1 0 0) (oneWord 0 []) = .next t ∧ t.status ≠ .running) ∧
    (oneWord 0 []).status = .running :=
  ⟨⟨_, rfl, rfl⟩, ⟨_, rfl, rfl⟩, ⟨_, rfl, by decide⟩, rfl⟩

theorem test_wit_OnlyNamedRegistersChange :
    (∃ t, exec (.ddivu Register.t1 Register.t2 0 0) (oneWord 0 [(Register.t1, 7), (Register.t2, 2)]) = .next t ∧
      t.rf.read Register.lo = 3 ∧ t.rf.read Register.hi = 1) ∧
    (Instr.ddivu Register.t1 Register.t2 0 0).shape.isDivision = true ∧
    (Instr.mult Register.t1 Register.t2 0 0).shape.isDivision = false ∧
    ∃ t, exec (.mult Register.t1 Register.t2 0 0) (oneWord 0 []) = .next t ∧ t.rf = initial [] :=
  ⟨⟨_, rfl, rfl, rfl⟩, rfl, rfl, ⟨_, rfl, rfl⟩⟩

theorem test_wit_AdduAgreesWithAdd :
    ∃ t, exec (.dadd Register.t1 Register.t2 Register.t0 0)
      (oneWord 0 [(Register.t1, 0xFFFFFFFFFFFFFFFF), (Register.t2, 1)]) = .next t ∧ t.status = .running ∧
      t.rf.read Register.t0 = 0 := ⟨_, rfl, rfl, rfl⟩

/-- A decoded instruction that is no division, one that is, and two Register Files that differ in `lo` and `hi` only. -/
theorem test_wit_LoHiOnlyByDivision :
    decode 0x012A402D#32 = .ok (.daddu Register.t1 Register.t2 Register.t0 0) ∧
    decode 0x012A001F#32 = .ok (.ddivu Register.t1 Register.t2 Register.zero 0) ∧
    (∀ r, r ≠ Register.lo → r ≠ Register.hi →
      (initial [(Register.lo, 1), (Register.hi, 2)]).read r = (initial []).read r) := by decide

theorem test_wit_UnexecutedRefused :
    (Instr.sync 0 0 0 0).shape.isExecuted = false ∧ (Instr.daddi Register.t1 Register.t0 1).shape.isExecuted = true ∧
    (oneWord 0 []).status = .running := by decide

/-- A decode-only function with a nonzero field the architecture reserves, in a word and in an instruction. -/
theorem test_wit_RFormatDecodeOnly :
    RFunc.jr ∈ [RFunc.sll, .jr] ∧ (0x03E007C8#32).extractLsb' 26 6 = 0 ∧
    (0x03E007C8#32).extractLsb' 0 6 = RFunc.jr.code ∧
    decode 0x03E007C8#32 = .ok (.jr Register.ra Register.zero Register.zero 31) ∧
    (Instr.jr Register.ra 0 0 31).shape = .r Register.ra 0 0 31 .jr := by decide

/-- One word per clause (a named function, a move format, BC), and an instruction of the last clause. -/
theorem test_wit_Cop1DecodeOnly :
    (0x46041000#32).extractLsb' 26 6 = 17 ∧ Cop1Fmt.lookup ((0x46041000#32).extractLsb' 21 5) = some (.arith .s) ∧
    Cop1Func.lookup ((0x46041000#32).extractLsb' 0 6) = some .add ∧
    (0x4408103F#32).extractLsb' 26 6 = 17 ∧ Cop1Fmt.lookup ((0x4408103F#32).extractLsb' 21 5) = some .mf ∧
    (0x451D0004#32).extractLsb' 26 6 = 17 ∧ Cop1Fmt.lookup ((0x451D0004#32).extractLsb' 21 5) = some .bc ∧
    (Instr.addFmt .s 4 2 0).shape = .fr (.arith .s) 4 2 0 (.named .add) none none := by decide

theorem test_wit_IFormatDecodeOnly :
    IOpcode.sd ∉ [IOpcode.regimm, .addi, .addiu, .daddi, .daddiu] ∧ (0xFFFFFFFF#32).extractLsb' 26 6 = IOpcode.sd.code ∧
    (Instr.sd Register.ra Register.ra 0xFFFF).shape =
      .i .sd Register.ra Register.ra 0xFFFFFFFF 0xFFFF none := by decide

theorem test_wit_RegimmDecodeOnly :
    (0x0411FFFF#32).extractLsb' 26 6 = 1 ∧ RegimmCode.lookup ((0x0411FFFF#32).extractLsb' 16 5) = some .bgezal ∧
    (0x04040004#32).extractLsb' 26 6 = 1 ∧ RegimmCode.lookup ((0x04040004#32).extractLsb' 16 5) = none ∧
    (Instr.tnei Register.t1 0xFFFF).shape = .i .regimm Register.t1 Register.t6 0xFFFFFFFF 0xFFFF (some .tnei) := by decide

/-- The driver's cases: a decoding word, an undecodable one, the end, an ended run, an index beyond the end. -/
theorem test_wit_DriverStep :
    (oneWord 0x012A402D []).k < (oneWord 0x012A402D []).words.length ∧ (oneWord 0x012A402D []).status = .running ∧
    decode (oneWord 0x012A402D []).words[0] = .ok (.daddu Register.t1 Register.t2 Register.t0 0) ∧
    decode (oneWord 0x40000000 []).words[0] = .unknownEncoding .opcode 16 ∧
    { oneWord 0 [] with k := 1 }.k = { oneWord 0 [] with k := 1 }.words.length := by decide

theorem test_wit_StepRunsDecodedInstruction :
    step (oneWord 0x012A402D []) = exec (.daddu Register.t1 Register.t2 Register.t0 0) (oneWord 0x012A402D []) := rfl

theorem test_wit_EndedRunStays :
    { State.reset with status := .done }.status ≠ .running ∧
    { State.reset with status := .halted (.fault .overflowFault) }.status ≠ .running ∧
    State.reset.words.length < { State.reset with k := 1 }.k := by decide

theorem test_wit_RunTerminates :
    State.reset.status = .running ∧ State.reset.k ≤ State.reset.words.length ∧
    (∃ t, core.run 1 State.reset = .next t ∧ Ended t) ∧
    ∃ t, core.run 1 (oneWord 0x0000000C []) = .next t ∧ Ended t :=
  ⟨rfl, Nat.le_refl _, ⟨_, rfl, .inl ⟨rfl, rfl⟩⟩, ⟨_, rfl, .inr ⟨_, rfl⟩⟩⟩

theorem test_wit_DecodeAheadEquivalence :
    core.run 2 (oneWord 0x0000000C []) = .next (runDecoded (decodeAll [0x0000000C]) (oneWord 0x0000000C [])) ∧
    (oneWord 0x0000000C []).k ≤ (oneWord 0x0000000C []).words.length := ⟨rfl, by decide⟩

theorem test_wit_StartValues : Register.hi ≠ Register.zero ∧
    (State.start (fun r => BitVec.ofNat 64 r.val) []).rf.read Register.hi = 33 := by decide

/-- A running, a done and a halted state with the invariant. -/
theorem test_wit_StepKeepsInv :
    Inv (oneWord 0x012A402D []) ∧ Inv { oneWord 0 [] with k := 1, status := .done, seqs := [{ words := [0, 0], pos := 2 }] } ∧
    Inv { oneWord 0 [] with status := .halted (.fault .overflowFault) } :=
  ⟨⟨by decide, by decide, by decide, fun h e => (nomatch e), by decide⟩,
   ⟨by decide, by decide, by decide, fun h e => (nomatch e), by decide⟩,
   ⟨by decide, by decide, by decide, fun _ _ => by decide, by decide⟩⟩

end Sys2Proof.Machine.Tests
end

section
/-! SUPPORT. The Bit Extraction primitive `extract` (R12, R13): its value inside its domain, the domain itself, and a
field's unsigned and two's-complement value; the obligations O1 and O2 follow from these. -/

namespace Sys2Proof

theorem field_toNat (v : Word) (lo len : Nat) : (field v lo len).toNat = v.toNat / 2 ^ lo % 2 ^ len := by
  rw [field, BitVec.extractLsb'_toNat, Nat.shiftRight_eq_div_pow]

/-- The sign of a field is its own most-significant bit, which is bit `start` of the word (R12). -/
theorem field_toInt (v : Word) {start stop : Nat} (h : stop ≤ start) :
    (field v stop (start - stop + 1)).toInt =
      ((v.toNat / 2 ^ stop % 2 ^ (start - stop + 1) : Nat) : Int) -
        if v.getLsbD start then 2 ^ (start - stop + 1) else 0 := by
  have hmsb : (field v stop (start - stop + 1)).msb = v.getLsbD start := by
    simp [field, BitVec.msb_eq_getLsbD_last, Nat.add_sub_cancel' h]
  rw [BitVec.toInt_eq_msb_cond, hmsb, field_toNat]
  split <;> simp

@[simp] theorem immUnsigned_toNat (imm : BitVec 16) : (immUnsigned imm).toNat = imm.toNat :=
  BitVec.toNat_setWidth_of_le (by decide)

@[simp] theorem immSigned_toInt (imm : BitVec 16) : (immSigned imm).toInt = imm.toInt :=
  BitVec.toInt_signExtend_of_le (by decide)

namespace Machine

/-- `extract` inside its domain, with either sign treatment, is the field (R12). -/
theorem extract_ok (v : Word) {start stop : Nat} (h : stop ≤ start) (h31 : start ≤ 31) (signed : Bool) :
    extract v start stop signed = .ok (if signed then (field v stop (start - stop + 1)).toInt
      else ((field v stop (start - stop + 1)).toNat : Int)) := by
  have hlen : ((start : Int) - stop + 1).toNat = start - stop + 1 := by omega
  rw [extract, if_pos (by omega), hlen]
  rfl

/-- `extract` of all 32 bits is the word's value (R14). -/
theorem extract_whole (v : Word) (signed : Bool) :
    extract v 31 0 signed = .ok (if signed then v.toInt else (v.toNat : Int)) :=
  calc extract v 31 0 signed
    _ = .ok (if signed then (field v 0 32).toInt else ((field v 0 32).toNat : Int)) :=
      extract_ok v (start := 31) (stop := 0) (by decide) (by decide) signed
    _ = _ := by rw [field, extract_all]

theorem extract_eq_invalidRange_iff (v : Word) (start stop : Int) (signed : Bool) :
    extract v start stop signed = .error .invalidRange ↔ ¬ (0 ≤ stop ∧ stop ≤ start ∧ start ≤ 31) := by
  unfold extract
  split
  case isTrue h => simp [h]
  case isFalse h => simp [h]

/-- Settles O1: inside the domain `extract` is the field, whose value `field_toNat` and `field_toInt` give. -/
theorem extractReadsField : Obligations.ExtractReadsField := by
  unfold Obligations.ExtractReadsField
  refine ⟨fun v => ⟨extract_whole v true, extract_whole v false⟩, fun v start stop h h31 => ⟨?unsigned, ?signed⟩⟩
  case unsigned => rw [extract_ok v h h31, if_neg Bool.false_ne_true, field_toNat]
  case signed => rw [extract_ok v h h31, if_pos rfl, field_toInt v h]

/-- Settles O2: the domain is the guard of `extract`, and each range the decoder reads is an instance of
`extract_unsigned` or `extract_ok`; widening the immediate keeps its value. -/
theorem extractDomain : Obligations.ExtractDomain := by
  unfold Obligations.ExtractDomain
  refine ⟨extract_eq_invalidRange_iff, fun w => ?_⟩
  rw [immUnsigned_toNat, immSigned_toInt]
  exact ⟨extract_unsigned w 26 5 (by decide), extract_unsigned w 21 4 (by decide),
    extract_unsigned w 16 4 (by decide), extract_unsigned w 11 4 (by decide), extract_unsigned w 6 4 (by decide),
    extract_unsigned w 0 5 (by decide), extract_unsigned w 0 25 (by decide), extract_unsigned w 0 15 (by decide),
    extract_ok w (start := 15) (stop := 0) (by decide) (by decide) true⟩

end Machine

end Sys2Proof
end

section
/-! SUPPORT. What the Register File's views and write accessors do (R25 to R32): the six views of a slot as arithmetic on
its 64 bits, the register written as its own views then read it, and the stored slots. The obligations O17 to O21 follow. -/

namespace Sys2Proof.Machine

variable (rf : RegFile) {r q : Register}

@[simp] theorem RegFile.readLo_zero : rf.readLo Register.zero = 0 := rfl
@[simp] theorem RegFile.readHi_zero : rf.readHi Register.zero = 0 := by
  rw [RegFile.readHi, RegFile.read_zero]; decide

@[simp] theorem RegFile.write32_zero (half : Half) (p : Word) : rf.write32 Register.zero half p = rf := by
  cases half <;> rfl

theorem RegFile.slot_write64_same (h : r ≠ Register.zero) (p : DWord) : (rf.write64 r p).slots[r] = p := by
  simp [RegFile.write64, h]

theorem RegFile.slot_write64_other (h : q ≠ r) (p : DWord) : (rf.write64 r p).slots[q] = rf.slots[q] := by
  have hv : (r : Nat) ≠ (q : Nat) := fun e => h (Fin.ext e.symm)
  unfold RegFile.write64
  split_ifs
  · rfl
  · simp [hv]

/-! The register written, as the view it was written through then reads it (R29). -/

theorem RegFile.read_write64_self (p : DWord) :
    (rf.write64 r p).read r = if r = Register.zero then 0 else p := by
  split
  case isTrue h => subst h; rfl
  case isFalse h => exact rf.read_write64_same h p

theorem RegFile.readLo_write32_lo_self (p : Word) :
    (rf.write32 r .lo p).readLo r = if r = Register.zero then 0 else p := by
  split
  case isTrue h => subst h; rfl
  case isFalse h => exact rf.readLo_write32_lo h p

theorem RegFile.readHi_write32_hi_self (p : Word) :
    (rf.write32 r .hi p).readHi r = if r = Register.zero then 0 else p := by
  split
  case isTrue h => subst h; rw [rf.write32_zero, rf.readHi_zero]
  case isFalse h => exact rf.readHi_write32_hi h p

/-! The halves, from the 64-bit read; the lo half after a write of either width. -/

/-- A register that reads the same at 64 bits reads the same in both halves. -/
theorem RegFile.halves_eq {rf rf' : RegFile} (h : rf'.read q = rf.read q) :
    rf'.readLo q = rf.readLo q ∧ rf'.readHi q = rf.readHi q := by
  unfold RegFile.readLo RegFile.readHi
  rw [h]
  exact ⟨rfl, rfl⟩

theorem RegFile.readLo_write64_same (h : r ≠ Register.zero) (p : DWord) :
    (rf.write64 r p).readLo r = p.extractLsb' 0 32 := by
  rw [RegFile.readLo, rf.read_write64_same h]

theorem RegFile.readLo_write64_other (h : q ≠ r) (p : DWord) : (rf.write64 r p).readLo q = rf.readLo q :=
  (RegFile.halves_eq (rf.read_write64_other h p)).1

theorem RegFile.readLo_writeResult32_other (m : W32Hi) (h : q ≠ r) (p : Word) :
    (rf.writeResult32 m r p).readLo q = rf.readLo q :=
  (RegFile.halves_eq (rf.read_writeResult32_other m h p)).1

/-! The halves of a slot as arithmetic (R25). -/

theorem RegFile.readLo_toNat (r : Register) : (rf.readLo r).toNat = (rf.read r).toNat % 2 ^ 32 := by
  rw [RegFile.readLo, BitVec.extractLsb'_toNat, Nat.shiftRight_zero]

theorem RegFile.readHi_toNat (r : Register) : (rf.readHi r).toNat = (rf.read r).toNat / 2 ^ 32 := by
  rw [RegFile.readHi, BitVec.extractLsb'_toNat, Nat.shiftRight_eq_div_pow]
  exact Nat.mod_eq_of_lt (Nat.div_lt_of_lt_mul (rf.read r).isLt)

theorem RegFile.readLo_msb (r : Register) : (rf.readLo r).msb = (rf.read r).getLsbD 31 := by
  simp [RegFile.readLo, BitVec.msb_eq_getLsbD_last]

theorem RegFile.readHi_msb (r : Register) : (rf.readHi r).msb = (rf.read r).getLsbD 63 := by
  simp [RegFile.readHi, BitVec.msb_eq_getLsbD_last]

/-- Two's complement: the unsigned value less `2^w` when the top bit is set. -/
theorem toInt_eq_sub {w : Nat} (x : BitVec w) : x.toInt = (x.toNat : Int) - if x.msb then 2 ^ w else 0 := by
  rw [BitVec.toInt_eq_msb_cond]
  split <;> simp

/-- Settles O17: `r0` reads 0 in full and in both halves, and `write64` and `write32` leave it alone, and each view
and each write accessor is made of these. -/
theorem registerZero : Obligations.RegisterZero := by
  unfold Obligations.RegisterZero
  intro rf
  have hhi : rf.readSigned32Hi Register.zero = 0 ∧ rf.readUnsigned32Hi Register.zero = 0 := by
    simp [RegFile.readSigned32Hi, RegFile.readUnsigned32Hi]
  refine ⟨rfl, rfl, rfl, rfl, hhi.1, hhi.2, fun _ => rfl, fun _ => rfl, fun _ => rfl, fun _ => rfl, fun v => ?_, fun v => ?_⟩
  · rw [RegFile.writeSigned32Hi, rf.write32_zero, hhi.1]
  · rw [RegFile.writeUnsigned32Hi, rf.write32_zero, hhi.2]

/-- Settles O18: the unsigned views by `readLo_toNat` and `readHi_toNat`, the signed ones by their own top bit. -/
theorem sixViews : Obligations.SixViews := by
  unfold Obligations.SixViews
  intro rf r x
  refine ⟨rfl, ?signed64, rf.readLo_toNat r, ?signedLo, rf.readHi_toNat r, ?signedHi⟩
  case signed64 => exact (toInt_eq_sub x).trans (by rw [BitVec.msb_eq_getLsbD_last])
  case signedLo => rw [RegFile.readSigned32Lo, toInt_eq_sub, rf.readLo_msb, rf.readLo_toNat]
  case signedHi => rw [RegFile.readSigned32Hi, toInt_eq_sub, rf.readHi_msb, rf.readHi_toNat]

/-- Settles O19: the two register laws, for the read and for the stored slot. -/
theorem write64Effect : Obligations.Write64Effect := by
  unfold Obligations.Write64Effect
  intro rf reg p
  refine ⟨?zero, fun h => ⟨rf.read_write64_same h p, rf.slot_write64_same h p⟩,
    fun q hq => ⟨rf.read_write64_other hq p, rf.slot_write64_other hq p⟩⟩
  case zero => rintro rfl; exact rf.write64_zero p

/-- Settles O20: each half by its own law, the join of the halves by `halves_append`, and the frame in all views by that
of the 64-bit read. -/
theorem write32Effect : Obligations.Write32Effect := by
  unfold Obligations.Write32Effect
  intro rf reg p
  refine ⟨?zero, ?halves, ?joined, ?frame⟩
  case zero => rintro half rfl; exact rf.write32_zero half p
  case halves =>
    exact fun h => ⟨rf.readLo_write32_lo h p, rf.readHi_write32_lo p, rf.readHi_write32_hi h p, rf.readLo_write32_hi p⟩
  case joined =>
    intro p h
    rw [RegFile.readHi, RegFile.readLo, rf.read_write64_same h, halves_append]
  case frame =>
    intro q hq rf' hw
    have hread : rf'.read q = rf.read q := by
      obtain ⟨p, rfl⟩ | ⟨half, rfl⟩ := hw
      · exact rf.read_write64_other hq p
      · exact rf.read_write32_other half hq p
    exact ⟨hread, RegFile.halves_eq hread⟩

/-- Settles O21: each accessor returns its view of the register just written. -/
theorem accessorWrites : Obligations.AccessorWrites := by
  unfold Obligations.AccessorWrites
  intro rf r
  refine ⟨fun v => ?_, fun v => ?_, fun v => ?_, fun v => ?_, fun v => ?_, fun v => ?_⟩
  · rw [RegFile.writeSigned64, RegFile.readSigned64, rf.read_write64_self, apply_ite BitVec.toInt]; rfl
  · rw [RegFile.writeUnsigned64, RegFile.readUnsigned64, rf.read_write64_self, apply_ite BitVec.toNat]; rfl
  · rw [RegFile.writeSigned32Lo, RegFile.readSigned32Lo, rf.readLo_write32_lo_self, apply_ite BitVec.toInt]; rfl
  · rw [RegFile.writeUnsigned32Lo, RegFile.readUnsigned32Lo, rf.readLo_write32_lo_self, apply_ite BitVec.toNat]; rfl
  · rw [RegFile.writeSigned32Hi, RegFile.readSigned32Hi, rf.readHi_write32_hi_self, apply_ite BitVec.toInt]; rfl
  · rw [RegFile.writeUnsigned32Hi, RegFile.readUnsigned32Hi, rf.readHi_write32_hi_self, apply_ite BitVec.toNat]; rfl

end Sys2Proof.Machine
end

section
/-! SUPPORT. Where a run starts (R40, R276) and the machine's invariant: each thing the driver or a holder of a `decode_all`
sequence does to the state keeps it. The obligations O56 to O59 follow. -/

namespace Sys2Proof.Machine

theorem RegFile.slot_zero_init (p : Register → DWord) : (RegFile.init p).slots[0] = 0 := by
  simp [RegFile.init]

theorem RegFile.read_init (p : Register → DWord) {r : Register} (h : r ≠ Register.zero) :
    (RegFile.init p).read r = p r := by
  simp [RegFile.read, RegFile.init, h]

/-- The reset contents are P_INIT_RF at 0 everywhere (log entry 6). -/
theorem RegFile.init_zero : RegFile.init (fun _ => 0) = ⟨Vector.replicate 34 0⟩ := by
  simp only [RegFile.init, ite_self, RegFile.mk.injEq]
  decide

theorem State.reset_eq_start : State.reset = State.start (fun _ => 0) [] := by
  rw [State.start, RegFile.init_zero, State.reset]

/-- Settles O56: the initial contents slot by slot, and a call of `decode_all` starts at 0 whatever they are. -/
theorem startValues : Obligations.StartValues := by
  unfold Obligations.StartValues
  exact fun p words => ⟨rfl, fun r hr => RegFile.read_init p hr, fun ws => rfl⟩

/-- Settles O57: the step is the one at the end of the empty sequence. -/
theorem resetState : Obligations.ResetState := by
  unfold Obligations.ResetState
  exact ⟨State.reset_eq_start, rfl, rfl, rfl, step_of_over (fetch_end rfl rfl)⟩

theorem inv_start (p : Register → DWord) (words : List Word) : Inv (State.start p words) where
  zero := RegFile.slot_zero_init p
  index := Nat.zero_le _
  done := nofun
  halted := nofun
  seq := nofun

/-- Settles O58: reset is a start. -/
theorem invAtReset : Obligations.InvAtReset := by
  unfold Obligations.InvAtReset
  exact ⟨State.reset_eq_start ▸ inv_start _ _, inv_start⟩

section
variable {s : State} (hi : Inv s)
include hi

/-- The count of draws is no part of the invariant. -/
theorem Inv.drawIf (b : Bool) : Inv (s.drawIf b) := by
  cases b with
  | false => exact hi
  | true => exact ⟨hi.zero, hi.index, hi.done, hi.halted, hi.seq⟩

theorem Inv.finish (hk : s.k = s.words.length) : Inv s.finish where
  zero := hi.zero
  index := hi.index
  done _ := hk
  halted := nofun
  seq := hi.seq

theorem Inv.halt (hk : s.k < s.words.length) (h : Halt) : Inv (s.halt h) where
  zero := hi.zero
  index := hi.index
  done := nofun
  halted _ _ := hk
  seq := hi.seq

theorem Inv.retire (hs : s.status = .running) (hk : s.k < s.words.length) {rf : RegFile}
    (hz : rf.slots[0] = s.rf.slots[0]) : Inv (s.retire rf) where
  zero := hz.trans hi.zero
  index := hk
  done h := nomatch hs.symm.trans h
  halted _ h := nomatch hs.symm.trans h
  seq := hi.seq

/-- Every outcome of an operation settles into the invariant, when a success has kept the stored slot of `r0`. -/
theorem Inv.settle (hs : s.status = .running) (hk : s.k < s.words.length) {dests : List Register} {r : ExecResult}
    (hr : r.Keeps dests s.rf) : Inv (s.settle r) := by
  cases r with
  | ok rf => exact hi.retire hs hk (hr.of rf rfl).2
  | overflowFault => exact hi.halt hk _
  | unimplemented i => exact hi.halt hk _

theorem Inv.exec (hs : s.status = .running) (hk : s.k < s.words.length) (i : Instr) :
    ∃ t, exec i s = .next t ∧ Inv t := by
  obtain ⟨b, r, he, ha⟩ := exec_cases i s
  refine ⟨_, he, (hi.drawIf b).settle (dests := i.shape.dests) ?_ ?_ ?_⟩
  · simpa using hs
  · simpa using hk
  · simpa using ha.keeps

theorem Inv.step : ∃ t, step s = .next t ∧ Inv t := by
  rcases step_cases s with ⟨-, hstep⟩ | ⟨-, hk, hstep⟩ | ⟨-, hk, -⟩ | ⟨hk, f, c, -, -, hstep⟩ | ⟨hk, i, hs, -, hstep⟩
  · exact ⟨s, hstep, hi⟩
  · exact ⟨_, hstep, hi.finish hk⟩
  · exact absurd hi.index (Nat.not_le_of_lt hk)
  · exact ⟨_, hstep, hi.halt hk _⟩
  · rw [hstep]; exact hi.exec hs hk i

/-- The invariant of a state that differs in its sequences alone is that of the sequences. -/
theorem Inv.withSeqs {l : List DecodeSeq} (hl : ∀ q ∈ l, q.pos ≤ q.words.length) : Inv { s with seqs := l } :=
  ⟨hi.zero, hi.index, hi.done, hi.halted, hl⟩

theorem Inv.decodeAllNew (words : List Word) : Inv (s.decodeAllNew words).2 := by
  refine hi.withSeqs fun q hq => ?_
  rcases List.mem_append.1 hq with hold | hnew
  · exact hi.seq q hold
  · rw [List.mem_singleton.1 hnew]; exact Nat.zero_le _

end

/-- Taking an element of a sequence does not move its position past its end (R39). -/
theorem DecodeSeq.next_pos_le {q : DecodeSeq} (h : q.pos ≤ q.words.length) : q.next.2.pos ≤ q.next.2.words.length := by
  rcases q.next_cases with ⟨hlt, e⟩ | ⟨-, e⟩ <;> rw [e]
  · exact hlt
  · exact h

theorem Inv.decodeAllNext {s : State} (hi : Inv s) (n : Nat) : Inv (s.decodeAllNext n).2 := by
  rcases hn : s.seqs[n]? with _ | q
  · rw [s.decodeAllNext_of_none n hn]; exact hi
  · rw [s.decodeAllNext_of_some n hn]
    refine hi.withSeqs fun q' hq' => ?_
    rcases List.mem_or_eq_of_mem_set hq' with hold | rfl
    · exact hi.seq q' hold
    · exact DecodeSeq.next_pos_le (hi.seq q (List.mem_of_getElem? hn))

/-- Settles O59: `Inv.step` is the case analysis of one step, `Inv.decodeAllNew` and `Inv.decodeAllNext` the two sequence
operations. -/
theorem stepKeepsInv : Obligations.StepKeepsInv := by
  unfold Obligations.StepKeepsInv
  exact fun s hi => ⟨hi.step, fun words => ⟨hi.decodeAllNew words, rfl⟩,
    fun n => ⟨hi.decodeAllNext n, s.decodeAllNext_rf n⟩⟩

end Sys2Proof.Machine
end

section
/-! SUPPORT. The `decode_all` sequences (R39): what one request gives and leaves behind depends on the sequence asked alone,
no operation moves a position back, and requests to different sequences, or a later call of `decode_all`, do not disturb one
another. The obligations O15 and O60 follow. -/

namespace Sys2Proof.Machine

/-! One element of a sequence. -/

theorem DecodeSeq.next_of_lt {q : DecodeSeq} (h : q.pos < q.words.length) :
    q.next = (some (decode q.words[q.pos]), { words := q.words, pos := q.pos + 1 }) := by
  rcases q.next_cases with ⟨_, e⟩ | ⟨hge, -⟩
  · exact e
  · exact absurd h (Nat.not_lt_of_le hge)

theorem DecodeSeq.next_of_ge {q : DecodeSeq} (h : q.words.length ≤ q.pos) : q.next = (none, q) := by
  rcases q.next_cases with ⟨hlt, -⟩ | ⟨-, e⟩
  · exact absurd hlt (Nat.not_lt_of_le h)
  · exact e

/-- `t`'s sequences are `s`'s, each over the same words and at a position not before its own, with any new ones beside. -/
def NotBefore (s t : State) : Prop :=
  ∀ (m : Nat) (q : DecodeSeq), s.seqs[m]? = some q → ∃ p, q.pos ≤ p ∧ t.seqs[m]? = some { words := q.words, pos := p }

theorem notBefore_of_seqs_eq {s t : State} (h : t.seqs = s.seqs) : NotBefore s t :=
  fun _ q hq => ⟨q.pos, Nat.le_refl _, h ▸ hq⟩

section
variable (s : State) (n : Nat)

/-- What a request gives is a function of the sequence asked. -/
theorem State.decodeAllNext_fst : (s.decodeAllNext n).1 = s.seqs[n]?.bind (fun q => q.next.1) := by
  rcases hn : s.seqs[n]? with _ | q
  · rw [s.decodeAllNext_of_none n hn]; rfl
  · rw [s.decodeAllNext_of_some n hn]; rfl

/-- So is what it leaves of that sequence. -/
theorem State.decodeAllNext_asked : (s.decodeAllNext n).2.seqs[n]? = s.seqs[n]?.map (fun q => q.next.2) := by
  rcases hn : s.seqs[n]? with _ | q
  · rw [s.decodeAllNext_of_none n hn, hn]; rfl
  · rw [s.decodeAllNext_self n hn]; rfl

@[simp] theorem State.decodeAllNext_length : (s.decodeAllNext n).2.seqs.length = s.seqs.length := by
  rcases hn : s.seqs[n]? with _ | q
  · rw [s.decodeAllNext_of_none n hn]
  · rw [s.decodeAllNext_of_some n hn, List.length_set]

theorem State.decodeAllNext_exhausted {q : DecodeSeq} (hq : s.seqs[n]? = some q) (h : q.words.length ≤ q.pos) :
    s.decodeAllNext n = (none, s) := by
  obtain ⟨hlt, rfl⟩ := List.getElem?_eq_some_iff.1 hq
  rw [s.decodeAllNext_of_some n hq, DecodeSeq.next_of_ge h, List.set_getElem_self]

theorem State.decodeAllNext_withRf (rf : RegFile) :
    { s with rf := rf }.decodeAllNext n = ((s.decodeAllNext n).1, { (s.decodeAllNext n).2 with rf := rf }) := by
  rcases hn : s.seqs[n]? with _ | q
  · rw [s.decodeAllNext_of_none n hn, State.decodeAllNext_of_none { s with rf := rf } n hn]
  · rw [s.decodeAllNext_of_some n hn, State.decodeAllNext_of_some { s with rf := rf } n hn]

theorem State.decodeAllNew_keeps (words : List Word) {m : Nat} {q : DecodeSeq} (hq : s.seqs[m]? = some q) :
    (s.decodeAllNew words).2.seqs[m]? = some q :=
  (s.decodeAllNew_other words m (List.getElem?_eq_some_iff.1 hq).1).trans hq

theorem State.decodeAllNew_made (words : List Word) :
    (s.decodeAllNew words).2.seqs[(s.decodeAllNew words).1]? = some { words := words, pos := 0 } := by
  rw [State.decodeAllNew_seqs, State.decodeAllNew_name, List.getElem?_concat_length, DecodeSeq.new]

theorem notBefore_decodeAllNew (words : List Word) : NotBefore s (s.decodeAllNew words).2 :=
  fun _ q hq => ⟨q.pos, Nat.le_refl _, s.decodeAllNew_keeps words hq⟩

theorem notBefore_decodeAllNext : NotBefore s (s.decodeAllNext n).2 := by
  intro m q hq
  by_cases hm : m = n
  · subst hm
    rw [s.decodeAllNext_self m hq]
    rcases q.next_cases with ⟨_, e⟩ | ⟨-, e⟩ <;> rw [e]
    · exact ⟨q.pos + 1, Nat.le_succ _, rfl⟩
    · exact ⟨q.pos, Nat.le_refl _, rfl⟩
  · exact ⟨q.pos, Nat.le_refl _, (s.decodeAllNext_other n hm).trans hq⟩

end

/-- Settles O15: the call, the request to a sequence below its end and at it, `NotBefore` for each of the three operations,
and the two independences. -/
theorem decodeAllPosition : Obligations.DecodeAllPosition := by
  unfold Obligations.DecodeAllPosition
  intro s
  refine ⟨fun words => ?call, fun n q hq => ?request, ?notBefore, fun rf' n => ?registers, fun i t => exec_seqs⟩
  case call =>
    exact ⟨List.getElem?_eq_none (Nat.le_refl _), s.decodeAllNew_made words, fun m q => s.decodeAllNew_keeps words, rfl⟩
  case request =>
    refine ⟨fun h => ?below, fun h => ?atEnd, fun m hm => s.decodeAllNext_other n hm, s.decodeAllNext_eq n⟩
    case below =>
      rw [s.decodeAllNext_self n hq, s.decodeAllNext_of_some n hq, DecodeSeq.next_of_lt h]
      exact ⟨rfl, rfl⟩
    case atEnd =>
      rw [s.decodeAllNext_exhausted n hq (Nat.le_of_eq h.symm)]
      exact ⟨rfl, rfl⟩
  case notBefore =>
    rintro t (⟨words, rfl⟩ | ⟨n, rfl⟩ | hstep)
    · exact notBefore_decodeAllNew s words
    · exact notBefore_decodeAllNext s n
    · exact notBefore_of_seqs_eq (step_seqs hstep)
  case registers =>
    rw [s.decodeAllNext_withRf n rf']
    exact ⟨rfl, rfl⟩

/-! Many requests, in any order. -/

@[simp] theorem State.takes_nil (s : State) : s.takes [] = ([], s) := rfl

@[simp] theorem State.takes_cons (s : State) (n : Nat) (ns : List Nat) :
    s.takes (n :: ns) = ((n, (s.decodeAllNext n).1) :: ((s.decodeAllNext n).2.takes ns).1,
      ((s.decodeAllNext n).2.takes ns).2) := rfl

/-- Requests to the one sequence `n` give and leave the same in two states that hold the same sequence `n`. -/
theorem State.takes_congr {n : Nat} (ns : List Nat) (hns : ∀ m ∈ ns, m = n) {s t : State} (h : s.seqs[n]? = t.seqs[n]?) :
    (s.takes ns).1 = (t.takes ns).1 ∧ (s.takes ns).2.seqs[n]? = (t.takes ns).2.seqs[n]? := by
  induction ns generalizing s t with
  | nil => exact ⟨rfl, h⟩
  | cons m ms ih =>
    obtain ⟨rfl, hms⟩ := List.forall_mem_cons.1 hns
    have hnext : (s.decodeAllNext m).2.seqs[m]? = (t.decodeAllNext m).2.seqs[m]? := by
      rw [s.decodeAllNext_asked, t.decodeAllNext_asked, h]
    obtain ⟨hgiven, hleft⟩ := ih hms hnext
    simp only [State.takes_cons, s.decodeAllNext_fst, t.decodeAllNext_fst, h, hgiven, hleft, and_self]

/-- Of any requests, those to `n` give and leave what they do without the others. -/
theorem State.takes_filter (n : Nat) (asked : List Nat) (s : State) :
    (s.takes asked).1.filter (fun e => e.1 == n) = (s.takes (asked.filter (· == n))).1 ∧
    (s.takes asked).2.seqs[n]? = (s.takes (asked.filter (· == n))).2.seqs[n]? := by
  induction asked generalizing s with
  | nil => exact ⟨rfl, rfl⟩
  | cons m ms ih =>
    obtain ⟨hgiven, hleft⟩ := ih (s.decodeAllNext m).2
    by_cases hm : m = n
    · subst hm
      simp [hgiven, hleft]
    · have halone := State.takes_congr (ms.filter (· == n)) (by simp) (s.decodeAllNext_other m (Ne.symm hm))
      simp [hm, hgiven, hleft, halone]

/-- A request to a sequence already made and a call of `decode_all` may change places. -/
theorem State.decodeAllNext_decodeAllNew (s : State) (words : List Word) {n : Nat} (hn : n < s.seqs.length) :
    (s.decodeAllNew words).2.decodeAllNext n =
      ((s.decodeAllNext n).1, ((s.decodeAllNext n).2.decodeAllNew words).2) := by
  have hq := List.getElem?_eq_getElem hn
  rw [s.decodeAllNext_of_some n hq, State.decodeAllNext_of_some _ n (s.decodeAllNew_keeps words hq)]
  simp only [State.decodeAllNew, List.set_append_left _ _ hn]

/-- So may any requests to sequences already made. -/
theorem State.takes_decodeAllNew (words : List Word) (asked : List Nat) (s : State)
    (h : ∀ m ∈ asked, m < s.seqs.length) :
    (s.decodeAllNew words).2.takes asked = ((s.takes asked).1, ((s.takes asked).2.decodeAllNew words).2) := by
  induction asked generalizing s with
  | nil => rfl
  | cons m ms ih =>
    obtain ⟨hm, hms⟩ := List.forall_mem_cons.1 h
    have hrest := ih (s.decodeAllNext m).2 (by simpa using hms)
    simp only [State.takes_cons, s.decodeAllNext_decodeAllNew words hm, hrest]

/-- Settles O60, by induction on the requests. -/
theorem decodeAllInterleaved : Obligations.DecodeAllInterleaved := by
  unfold Obligations.DecodeAllInterleaved
  intro s asked n
  obtain ⟨hgiven, hleft⟩ := State.takes_filter n asked s
  refine ⟨hgiven, hleft, fun words h => ?_⟩
  rw [State.takes_decodeAllNew words asked s h]
  exact ⟨rfl, rfl⟩

end Sys2Proof.Machine
end

section
/-! SUPPORT. A decoded instruction's register fields are `r0` to `r31`, never `lo` or `hi` (R23, R56), so it is well-formed;
the registers an instruction that is no division writes are among its fields. -/

namespace Sys2Proof

/-- The register fields of a shape (R52, R55); an FR or J shape has none (R56). -/
def Shape.registerFields : Shape → List Register
  | .r rs rt rd _ _ => [rs, rt, rd]
  | .i _ rs rt _ _ _ => [rs, rt]
  | .fr _ _ _ _ _ _ _ => []
  | .j _ _ => []

/-- An instruction's operands are among its shape's register fields. -/
theorem Instr.gprOperands_subset (i : Instr) : i.gprOperands ⊆ i.shape.registerFields := by
  cases i
  case bltz | bgez | bltzl | bgezl | tgei | tgeiu | tlti | tltiu | teqi | tnei | bltzal | bgezal | bltzall | bgezall =>
    exact List.cons_subset_cons _ (List.nil_subset _)
  all_goals exact List.Subset.refl _

/-- An addition's destination is a register field; a division's are `lo` and `hi`, which no field names. -/
theorem Shape.dests_subset {sh : Shape} (h : sh.isDivision = false) : sh.dests ⊆ sh.registerFields := by
  cases sh with
  | r rs rt rd shamt f =>
    have hf : f.isDivision = false := h
    rw [Shape.dests, hf, if_neg Bool.false_ne_true]
    split <;> simp [Shape.registerFields]
  | i op rs rt imm immUs c =>
    rw [Shape.dests]
    split <;> simp [Shape.registerFields]
  | fr | j => exact List.nil_subset _

/-- Every register field of a decoded word is five bits of it (R56). -/
theorem registerFields_isGpr {w : Word} {i : Instr} (h : decode w = .ok i) :
    ∀ r ∈ i.shape.registerFields, r.isGpr = true := by
  have hv := decodeView w
  rw [h] at hv
  cases hv with
  | r f _ _ _ hi | fr _ _ _ _ _ _ _ hi | j _ _ _ hi | i _ _ _ _ hi => rw [hi]; simp [Shape.registerFields]

theorem wellFormed_of_decode {w : Word} {i : Instr} (h : decode w = .ok i) : i.wellFormed = true :=
  List.all_eq_true.2 fun r hr => registerFields_isGpr h r (i.gprOperands_subset hr)

theorem Register.ne_lo_of_isGpr {r : Register} (h : r.isGpr = true) : r ≠ Register.lo := by
  rintro rfl; exact absurd h (by decide)

theorem Register.ne_hi_of_isGpr {r : Register} (h : r.isGpr = true) : r ≠ Register.hi := by
  rintro rfl; exact absurd h (by decide)

end Sys2Proof
end

section
/-! SUPPORT. `lo` and `hi` (R23): over two Register Files that differ in `lo` and `hi` alone, an instruction's outcomes differ
in `lo` and `hi` alone, and a division's results are the same. The obligation O44 follows. -/

namespace Sys2Proof.Machine

/-- The Register Files agree outside `lo` and `hi`. -/
def AgreeOffLoHi (rf rf' : RegFile) : Prop := ∀ r, r ≠ Register.lo → r ≠ Register.hi → rf'.read r = rf.read r

section
variable {rf rf' : RegFile} (h : AgreeOffLoHi rf rf')
include h

theorem AgreeOffLoHi.read {r : Register} (hr : r.isGpr = true) : rf'.read r = rf.read r :=
  h r (Register.ne_lo_of_isGpr hr) (Register.ne_hi_of_isGpr hr)

theorem AgreeOffLoHi.s32 {r : Register} (hr : r.isGpr = true) : s32 rf' r = s32 rf r := by
  rw [Machine.s32, RegFile.readLo, h.read hr]; rfl

theorem AgreeOffLoHi.u32 {r : Register} (hr : r.isGpr = true) : u32 rf' r = u32 rf r := by
  rw [Machine.u32, RegFile.readLo, h.read hr]; rfl

theorem AgreeOffLoHi.s64 {r : Register} (hr : r.isGpr = true) : s64 rf' r = s64 rf r := by
  rw [Machine.s64, h.read hr]; rfl

theorem AgreeOffLoHi.u64 {r : Register} (hr : r.isGpr = true) : u64 rf' r = u64 rf r := by
  rw [Machine.u64, h.read hr]; rfl

/-- Both files are written at `dst`, with patterns that need agree only where `dst` is neither `lo` nor `hi`. -/
theorem AgreeOffLoHi.write64 {dst : Register} {p p' : DWord}
    (hp : dst ≠ Register.lo → dst ≠ Register.hi → p' = p) : AgreeOffLoHi (rf.write64 dst p) (rf'.write64 dst p') := by
  intro r hlo hhi
  rw [RegFile.read_write64, RegFile.read_write64]
  by_cases hr : r = dst
  · subst hr; rw [hp hlo hhi, h r hlo hhi]
  · rw [if_neg (hr ·.1), if_neg (hr ·.1), h r hlo hhi]

theorem AgreeOffLoHi.writeResult32 (m : W32Hi) (dst : Register) (p : Word) :
    AgreeOffLoHi (rf.writeResult32 m dst p) (rf'.writeResult32 m dst p) := by
  cases m with
  | preserve => exact h.write64 fun hlo hhi => by rw [RegFile.readHi, RegFile.readHi, h dst hlo hhi]
  | sext => exact h.write64 fun _ _ => rfl

end

/-- Two outcomes that differ at most in `lo` and `hi`; a division's (`division`) are both successes, with the same results in
the lo halves of `lo` and `hi`. -/
inductive ExecResult.AgreeOffLoHi (division : Bool) : ExecResult → ExecResult → Prop where
  | ok {rf rf' : RegFile} (h : Machine.AgreeOffLoHi rf rf')
      (hd : division = true → rf'.readLo Register.lo = rf.readLo Register.lo ∧
        rf'.readLo Register.hi = rf.readLo Register.hi) : AgreeOffLoHi division (.ok rf) (.ok rf')
  | overflowFault (hd : division = false) : AgreeOffLoHi division .overflowFault .overflowFault
  | unimplemented (hd : division = false) (i : Instr) : AgreeOffLoHi division (.unimplemented i) (.unimplemented i)

section
variable {rf rf' : RegFile} (h : AgreeOffLoHi rf rf') (m : W32Hi) (dst : Register) (draw : DWord)
include h

theorem AgreeOffLoHi.addTrap32 (a b : Int) :
    (addTrap32 m dst a b rf).AgreeOffLoHi false (addTrap32 m dst a b rf') := by
  unfold Machine.addTrap32
  split
  · exact .ok (h.writeResult32 _ _ _) nofun
  · exact .overflowFault rfl

theorem AgreeOffLoHi.addTrap64 (a b : Int) : (addTrap64 dst a b rf).AgreeOffLoHi false (addTrap64 dst a b rf') := by
  unfold Machine.addTrap64
  split
  · exact .ok (h.write64 fun _ _ => rfl) nofun
  · exact .overflowFault rfl

theorem AgreeOffLoHi.addWrap32 (a b : Nat) :
    (addWrap32 m dst a b rf).AgreeOffLoHi false (addWrap32 m dst a b rf') := .ok (h.writeResult32 _ _ _) nofun

theorem AgreeOffLoHi.addWrap64 (a b : Nat) : (addWrap64 dst a b rf).AgreeOffLoHi false (addWrap64 dst a b rf') :=
  .ok (h.write64 fun _ _ => rfl) nofun

/-! The additions, whose operands are general-purpose registers. -/

section
variable {rs rt : Register} (hs : rs.isGpr = true) (imm : BitVec 16)
include hs

theorem AgreeOffLoHi.opAddi : (opAddi m rs dst imm rf).AgreeOffLoHi false (opAddi m rs dst imm rf') := by
  rw [Machine.opAddi, Machine.opAddi, h.s32 hs]
  exact h.addTrap32 ..

theorem AgreeOffLoHi.opAddiu : (opAddiu m rs dst imm rf).AgreeOffLoHi false (opAddiu m rs dst imm rf') := by
  rw [Machine.opAddiu, Machine.opAddiu, h.u32 hs]
  exact h.addWrap32 ..

theorem AgreeOffLoHi.opDaddi : (opDaddi rs dst imm rf).AgreeOffLoHi false (opDaddi rs dst imm rf') := by
  rw [Machine.opDaddi, Machine.opDaddi, h.s64 hs]
  exact h.addTrap64 ..

theorem AgreeOffLoHi.opDaddiu : (opDaddiu rs dst imm rf).AgreeOffLoHi false (opDaddiu rs dst imm rf') := by
  rw [Machine.opDaddiu, Machine.opDaddiu, h.u64 hs]
  exact h.addWrap64 ..

variable (ht : rt.isGpr = true)
include ht

theorem AgreeOffLoHi.opAdd : (opAdd m rs rt dst rf).AgreeOffLoHi false (opAdd m rs rt dst rf') := by
  rw [Machine.opAdd, Machine.opAdd, h.s32 hs, h.s32 ht]
  exact h.addTrap32 ..

theorem AgreeOffLoHi.opAddu : (opAddu m rs rt dst rf).AgreeOffLoHi false (opAddu m rs rt dst rf') := by
  rw [Machine.opAddu, Machine.opAddu, h.u32 hs, h.u32 ht]
  exact h.addWrap32 ..

theorem AgreeOffLoHi.opDadd : (opDadd rs rt dst rf).AgreeOffLoHi false (opDadd rs rt dst rf') := by
  rw [Machine.opDadd, Machine.opDadd, h.s64 hs, h.s64 ht]
  exact h.addTrap64 ..

theorem AgreeOffLoHi.opDaddu : (opDaddu rs rt dst rf).AgreeOffLoHi false (opDaddu rs rt dst rf') := by
  rw [Machine.opDaddu, Machine.opDaddu, h.u64 hs, h.u64 ht]
  exact h.addWrap64 ..

end

/-! The divisions: the results are the same, whatever `lo` and `hi` held. -/

theorem AgreeOffLoHi.commitDiv32 (q r : Word) :
    (commitDiv32 m q r rf).AgreeOffLoHi true (commitDiv32 m q r rf') := by
  refine .ok ((h.writeResult32 _ _ _).writeResult32 _ _ _) fun _ => ⟨?_, ?_⟩
  · rw [RegFile.readLo_writeResult32_other _ m (by decide), RegFile.readLo_writeResult32 _ m (by decide),
      RegFile.readLo_writeResult32_other _ m (by decide), RegFile.readLo_writeResult32 _ m (by decide)]
  · rw [RegFile.readLo_writeResult32 _ m (by decide), RegFile.readLo_writeResult32 _ m (by decide)]

theorem AgreeOffLoHi.commitDivZero32 (a : Word) :
    (commitDivZero32 m draw a rf).AgreeOffLoHi true (commitDivZero32 m draw a rf') := by
  refine .ok ((h.writeResult32 _ _ _).write64 fun _ _ => rfl) fun _ => ⟨?_, ?_⟩
  · rw [RegFile.readLo_write64_other _ (by decide), RegFile.readLo_writeResult32 _ m (by decide),
      RegFile.readLo_write64_other _ (by decide), RegFile.readLo_writeResult32 _ m (by decide)]
  · rw [RegFile.readLo_write64_same _ (by decide), RegFile.readLo_write64_same _ (by decide)]

theorem AgreeOffLoHi.commitDiv64 (q r : DWord) :
    (commitDiv64 q r rf).AgreeOffLoHi true (commitDiv64 q r rf') := by
  refine .ok ((h.write64 fun _ _ => rfl).write64 fun _ _ => rfl) fun _ => ⟨?_, ?_⟩
  · rw [RegFile.readLo_write64_other _ (by decide), RegFile.readLo_write64_same _ (by decide),
      RegFile.readLo_write64_other _ (by decide), RegFile.readLo_write64_same _ (by decide)]
  · rw [RegFile.readLo_write64_same _ (by decide), RegFile.readLo_write64_same _ (by decide)]

variable {rs rt : Register} (hs : rs.isGpr = true) (ht : rt.isGpr = true)
include hs ht

theorem AgreeOffLoHi.opDiv : (opDiv m draw rs rt rf).AgreeOffLoHi true (opDiv m draw rs rt rf') := by
  unfold Machine.opDiv
  rw [h.s32 hs, h.s32 ht]
  dsimp only
  split
  · exact h.commitDivZero32 ..
  · exact h.commitDiv32 ..

theorem AgreeOffLoHi.opDivu : (opDivu m draw rs rt rf).AgreeOffLoHi true (opDivu m draw rs rt rf') := by
  unfold Machine.opDivu
  rw [h.u32 hs, h.u32 ht]
  dsimp only
  split
  · exact h.commitDivZero32 ..
  · exact h.commitDiv32 ..

theorem AgreeOffLoHi.opDdiv : (opDdiv draw rs rt rf).AgreeOffLoHi true (opDdiv draw rs rt rf') := by
  unfold Machine.opDdiv
  rw [h.s64 hs, h.s64 ht]
  dsimp only
  split <;> exact h.commitDiv64 ..

theorem AgreeOffLoHi.opDdivu : (opDdivu draw rs rt rf).AgreeOffLoHi true (opDdivu draw rs rt rf') := by
  unfold Machine.opDdivu
  rw [h.u64 hs, h.u64 ht]
  dsimp only
  split <;> exact h.commitDiv64 ..

end

section
variable {s : State} {rf' : RegFile} (h : AgreeOffLoHi s.rf rf')
include h

/-- A decoded instruction over two Register Files that agree outside `lo` and `hi` takes a draw in both or in neither, and
its outcomes agree there too. -/
theorem exec_agreeOffLoHi {i : Instr} (hw : i.wellFormed = true) :
    ∃ b r r', exec i s = .next ((s.drawIf b).settle r) ∧
      exec i { s with rf := rf' } = .next (({ s with rf := rf' }.drawIf b).settle r') ∧
      r.AgreeOffLoHi i.shape.isDivision r' := by
  have hgpr : ∀ r ∈ i.gprOperands, r.isGpr = true := List.all_eq_true.1 hw
  cases i
  case add rs rt rd sh =>
    exact ⟨false, _, _, rfl, rfl, h.opAdd _ rd (hgpr rs (.head _)) (hgpr rt (.tail _ (.head _)))⟩
  case addu rs rt rd sh =>
    exact ⟨false, _, _, rfl, rfl, h.opAddu _ rd (hgpr rs (.head _)) (hgpr rt (.tail _ (.head _)))⟩
  case dadd rs rt rd sh =>
    exact ⟨false, _, _, rfl, rfl, h.opDadd rd (hgpr rs (.head _)) (hgpr rt (.tail _ (.head _)))⟩
  case daddu rs rt rd sh =>
    exact ⟨false, _, _, rfl, rfl, h.opDaddu rd (hgpr rs (.head _)) (hgpr rt (.tail _ (.head _)))⟩
  case addi rs rt imm => exact ⟨false, _, _, rfl, rfl, h.opAddi _ rt (hgpr rs (.head _)) imm⟩
  case addiu rs rt imm => exact ⟨false, _, _, rfl, rfl, h.opAddiu _ rt (hgpr rs (.head _)) imm⟩
  case daddi rs rt imm => exact ⟨false, _, _, rfl, rfl, h.opDaddi rt (hgpr rs (.head _)) imm⟩
  case daddiu rs rt imm => exact ⟨false, _, _, rfl, rfl, h.opDaddiu rt (hgpr rs (.head _)) imm⟩
  case div rs rt rd sh =>
    have ht := hgpr rt (.tail _ (.head _))
    exact ⟨s32 s.rf rt == 0, _, _, rfl, h.s32 ht ▸ rfl, h.opDiv _ _ (hgpr rs (.head _)) ht⟩
  case divu rs rt rd sh =>
    have ht := hgpr rt (.tail _ (.head _))
    exact ⟨u32 s.rf rt == 0, _, _, rfl, h.u32 ht ▸ rfl, h.opDivu _ _ (hgpr rs (.head _)) ht⟩
  case ddiv rs rt rd sh =>
    have ht := hgpr rt (.tail _ (.head _))
    exact ⟨s64 s.rf rt == 0, _, _, rfl, h.s64 ht ▸ rfl, h.opDdiv _ (hgpr rs (.head _)) ht⟩
  case ddivu rs rt rd sh =>
    have ht := hgpr rt (.tail _ (.head _))
    exact ⟨u64 s.rf rt == 0, _, _, rfl, h.u64 ht ▸ rfl, h.opDdivu _ (hgpr rs (.head _)) ht⟩
  all_goals exact ⟨false, _, _, rfl, rfl, .unimplemented rfl _⟩

end

/-- The states agree in index, status, count of draws and every register but `lo` and `hi`; after a division (`division`) in
the lo halves of those two as well. -/
structure State.AgreeOffLoHi (division : Bool) (t t' : State) : Prop where
  k : t'.k = t.k
  status : t'.status = t.status
  draws : t'.draws = t.draws
  rf : Machine.AgreeOffLoHi t.rf t'.rf
  results : division = true → t'.rf.readLo Register.lo = t.rf.readLo Register.lo ∧
    t'.rf.readLo Register.hi = t.rf.readLo Register.hi

/-- Outcomes that agree are settled into states that agree. -/
theorem State.settle_agreeOffLoHi {division : Bool} {s s' : State} {r r' : ExecResult}
    (hs : s.AgreeOffLoHi false s') (hr : r.AgreeOffLoHi division r') :
    (s.settle r).AgreeOffLoHi division (s'.settle r') := by
  cases hr with
  | ok h hd => exact ⟨congrArg (· + 1) hs.k, hs.status, hs.draws, h, hd⟩
  | overflowFault hd => exact ⟨hs.k, rfl, hs.draws, hs.rf, fun h => nomatch hd.symm.trans h⟩
  | unimplemented hd i => exact ⟨hs.k, rfl, hs.draws, hs.rf, fun h => nomatch hd.symm.trans h⟩

theorem State.drawIf_agreeOffLoHi {s : State} {rf' : RegFile} (h : Machine.AgreeOffLoHi s.rf rf') (b : Bool) :
    (s.drawIf b).AgreeOffLoHi false ({ s with rf := rf' }.drawIf b) where
  k := by simp
  status := by simp
  draws := by simp
  rf := by simpa using h
  results := nofun

/-- A decoded instruction that is no division leaves `lo` and `hi` alone: no field names them. -/
theorem exec_read_of_not_gpr {w : Word} {i : Instr} {s t : State} (hd : decode w = .ok i)
    (hi : i.shape.isDivision = false) (he : exec i s = .next t) {r : Register} (hr : r.isGpr = false) :
    t.rf.read r = s.rf.read r := by
  have hdest : r ∉ i.shape.dests := fun hmem =>
    absurd (hr.symm.trans (registerFields_isGpr hd r (Shape.dests_subset hi hmem))) nofun
  obtain ⟨b, res, hexec, ha⟩ := exec_cases i s
  cases he.symm.trans hexec
  cases res with
  | ok rf => exact (ha.keeps.of rf rfl).1 r hdest
  | overflowFault | unimplemented => simp

/-- Settles O44: `exec_agreeOffLoHi` for the two runs, the register fields of a decoded word for the rest. -/
theorem loHiOnlyByDivision : Obligations.LoHiOnlyByDivision := by
  unfold Obligations.LoHiOnlyByDivision
  intro w i hd
  refine ⟨wellFormed_of_decode hd, fun s t hi he => ?alone, fun s rf' h => ?twoRuns⟩
  case alone =>
    exact ⟨exec_read_of_not_gpr hd hi he (by decide), exec_read_of_not_gpr hd hi he (by decide)⟩
  case twoRuns =>
    obtain ⟨b, r, r', he, he', hr⟩ := exec_agreeOffLoHi h (wellFormed_of_decode hd)
    obtain ⟨hk, hstatus, hdraws, hrf, hresults⟩ := State.settle_agreeOffLoHi (State.drawIf_agreeOffLoHi h b) hr
    exact ⟨_, _, he, he', hk, hstatus, hdraws, hrf, hresults⟩

end Sys2Proof.Machine
end

section
/-! SUPPORT. Encoding and decoding are inverse to each other (R52 to R57, R60, R61, R69): the register fields well-formedness is
about, the round trip shape by shape, and the word a decoded instruction came from. The obligations O4 and O5 follow. -/

namespace Sys2Proof

/-- Well-formedness speaks of every register field of the shape: the `rt` of a REGIMM word is a code of five bits (R61). -/
theorem Instr.wellFormed_iff (i : Instr) : i.wellFormed = true ↔ ∀ r ∈ i.shape.registerFields, r.isGpr = true := by
  cases i
  case bltz | bgez | bltzl | bgezl | tgei | tgeiu | tlti | tltiu | teqi | tnei | bltzal | bgezal | bltzall | bgezall =>
    simp [Instr.wellFormed, Instr.gprOperands, Instr.shape, regimmShape, Shape.registerFields]
  all_goals exact List.all_eq_true

/-! The round trip from an instruction, by its shape. -/

theorem decode_encode_of_shape_r {i : Instr} {rs rt rd : Register} {sh : BitVec 5} {f : RFunc}
    (h : i.shape = .r rs rt rd sh f) (hs : rs.isGpr = true) (ht : rt.isGpr = true) (hd : rd.isGpr = true) :
    decode (encode i) = .ok i := by
  rw [encode, h, decode_encode_r f sh hs ht hd, eq_instr_of_shape_r h]

theorem decode_encode_of_shape_fr {i : Instr} {m : Cop1Fmt} {ft fs fd : FPRegister} {fn : FrFunc} {nd tf : Option Bool}
    (h : i.shape = .fr m ft fs fd fn nd tf) : decode (encode i) = .ok i := by
  cases i
  case bc1f | bc1t | bc1fl | bc1tl => exact decode_encode_bc ..
  case mfc1 | dmfc1 | cfc1 | mtc1 | dmtc1 | ctc1 => exact (decode_encode_move ..).trans (by simp [decodeFR])
  all_goals cases h <;> exact decode_encode_arith ..

theorem decode_encode_of_shape_j {i : Instr} {op : JOpcode} {addr : BitVec 26} (h : i.shape = .j op addr) :
    decode (encode i) = .ok i := by
  cases i <;> cases h <;> exact (decode_encode_j ..).trans (by simp [decodeJ])

theorem decode_encode_of_shape_i {i : Instr} {op : IOpcode} {rs rt : Register} {imm immUs : BitVec 32}
    {c : Option RegimmCode} (h : i.shape = .i op rs rt imm immUs c) (hs : rs.isGpr = true) (ht : rt.isGpr = true) :
    decode (encode i) = .ok i := by
  cases i
  case bltz | bgez | bltzl | bgezl | tgei | tgeiu | tlti | tltiu | teqi | tnei | bltzal | bgezal | bltzall | bgezall =>
    cases h; exact decode_encode_regimm _ _ hs
  all_goals
    cases h <;> exact (decode_encode_i ..).trans (by simp [decodeI, Register.ofBits_toBits, hs, ht])

/-- Settles O4: the round trip of each shape, whose register fields a well-formed instruction has in `r0` to `r31`. -/
theorem decodeOfEncode : Obligations.DecodeOfEncode := by
  unfold Obligations.DecodeOfEncode
  intro i hw
  have hgpr := i.wellFormed_iff.1 hw
  cases h : i.shape with
  | r rs rt rd sh f =>
    rw [h] at hgpr
    exact decode_encode_of_shape_r h (hgpr rs (.head _)) (hgpr rt (.tail _ (.head _)))
      (hgpr rd (.tail _ (.tail _ (.head _))))
  | fr => exact decode_encode_of_shape_fr h
  | j => exact decode_encode_of_shape_j h
  | i op rs rt =>
    rw [h] at hgpr
    exact decode_encode_of_shape_i h (hgpr rs (.head _)) (hgpr rt (.tail _ (.head _)))

/-! The word of a decoded instruction. -/

/-- The shape of a BC1 word's instruction, in the fields of the word (R53, R60, R68). -/
theorem shape_bc1Instr_word (w : Word) :
    (bc1Instr (w.getLsbD 17) (w.getLsbD 16) (field w 18 3) (field w 0 16)).shape =
      .fr .bc (.ofBits (field w 16 5)) (.ofBits (field w 11 5)) (.ofBits (field w 6 5)) (.raw (field w 0 6))
        (some (w.getLsbD 17)) (some (w.getLsbD 16)) := by
  rw [shape_bc1Instr, bcShape, field_cond, field_low w 11 5 (by decide), field_low w 6 5 (by decide),
    field_low w 0 6 (by decide)]

/-- The function field of a decoded COP1 word, named or raw, has the word's bits 5:0 (R60). -/
theorem func_bits_of_decode_fr {w : Word} {i : Instr} (hd : decode w = .ok i) {m : Cop1Fmt} {ft fs fd : FPRegister}
    {fn : FrFunc} {nd tf : Option Bool} (ho : Opcode.lookup (field w 26 6) = some .cop1)
    (hm : Cop1Fmt.lookup (field w 21 5) = some m) (hi : i.shape = .fr m ft fs fd fn nd tf) : fn.bits = field w 0 6 := by
  rw [decode_cop1 ho] at hd
  cases m with
  | arith a =>
    rcases hf : Cop1Func.lookup (field w 0 6) with _ | f
    · cases (decodeFR_arith_none hm hf).symm.trans hd
    · cases (decodeFR_arith hm hf).symm.trans hd
      cases (Cop1Func.shape_instr ..).symm.trans hi
      exact Cop1Func.code_of_lookup _ _ hf
  | bc =>
    cases (decodeFR_bc hm).symm.trans hd
    cases (shape_bc1Instr_word w).symm.trans hi
    rfl
  | _ =>
    obtain ⟨i', hd', hi'⟩ := decodeFR_move hm nofun nofun
    cases hd'.symm.trans hd
    cases hi'.symm.trans hi
    rfl

theorem encode_of_decode {w : Word} {i : Instr} (h : decode w = .ok i) : encode i = w := by
  have hv := decodeView w
  rw [h] at hv
  cases hv with
  | r f _ ho hf hi =>
    rw [encode, hi, Shape.encode_r, Opcode.code_of_lookup _ _ ho, RFunc.code_of_lookup _ _ hf]
    simp only [Register.toBits_ofBits]
    exact sixFields_eta w
  | fr m fn nd tf _ ho hm hi =>
    rw [encode, hi, Shape.encode_fr, Opcode.code_of_lookup _ _ ho, Cop1Fmt.code_of_lookup _ _ hm,
      func_bits_of_decode_fr h ho hm hi]
    simp only [FPRegister.toBits_ofBits]
    exact sixFields_eta w
  | j op _ ho hi =>
    have hop : op.code = field w 26 6 := Opcode.code_of_lookup _ _ ho
    rw [encode, hi, Shape.encode_j, hop]
    exact twoFields_eta w
  | i op c _ ho hi =>
    have hop : op.code = field w 26 6 := Opcode.code_of_lookup _ _ ho
    rw [encode, hi, Shape.encode_i, hop, Register.toBits_ofBits, Register.toBits_ofBits]
    exact fourFields_eta w

/-- Settles O5: the decoder reads every bit of a word into a field, and its register fields are five bits wide. -/
theorem encodeOfDecode : Obligations.EncodeOfDecode := by
  unfold Obligations.EncodeOfDecode
  exact fun w i h => ⟨encode_of_decode h, wellFormed_of_decode h⟩

end Sys2Proof
end

section
/-! SUPPORT. What `decode` answers, field by field (R52 to R70): the closed sets, the format a word's opcode selects, the
decoded shape of each format's words, the two forms of the immediate, and the order in which unknown fields are found. The
obligations O3 and O6 to O13 follow. -/

namespace Sys2Proof

/-- Settles O3: `decode` computes on each word. -/
theorem decodesSampleWords : Obligations.DecodesSampleWords := by
  unfold Obligations.DecodesSampleWords
  exact ⟨rfl, rfl, rfl, rfl, rfl, rfl, rfl, rfl, rfl, rfl, rfl⟩

/-! Names and codes (R63 to R67). -/

theorem Opcode.lookup_code (o : Opcode) : Opcode.lookup o.code = some o := by
  cases o with
  | special => exact Opcode.lookup_special
  | cop1 => exact Opcode.lookup_cop1
  | j op => exact Opcode.lookup_j op
  | i op => exact Opcode.lookup_i op

theorem Opcode.lookup_eq_some_iff (c : BitVec 6) (o : Opcode) : Opcode.lookup c = some o ↔ o.code = c :=
  ⟨Opcode.code_of_lookup c o, fun h => h ▸ Opcode.lookup_code o⟩

/-- The codes outside the primary-opcode set (R63, R259, R271). -/
theorem Opcode.lookup_eq_none_iff (c : BitVec 6) :
    Opcode.lookup c = none ↔ c.toNat ∈ [16, 18, 19, 28, 29, 30, 31, 47, 50, 51, 54, 58, 59, 62] := by
  revert c; decide

/-! The order of checks (R70). -/

/-- Settles O13: `DecodeView` names the check that fails, and each failing check determines the answer. -/
theorem unknownEncodingFirstField : Obligations.UnknownEncodingFirstField := by
  unfold Obligations.UnknownEncodingFirstField
  intro w f c
  constructor
  · intro h
    have hv := decodeView w
    rw [h] at hv
    cases hv with
    | opcode ho => exact .inl ⟨rfl, rfl, ho⟩
    | func ho hf => exact .inr (.inl ⟨rfl, rfl, ho, hf⟩)
    | regimm ho hc => exact .inr (.inr (.inl ⟨rfl, rfl, ho, hc⟩))
    | fmt ho hm => exact .inr (.inr (.inr (.inl ⟨rfl, rfl, ho, hm⟩)))
    | cop1Func a ho hm hf => exact .inr (.inr (.inr (.inr ⟨rfl, rfl, ho, ⟨a, hm⟩, hf⟩)))
  · rintro (⟨rfl, rfl, ho⟩ | ⟨rfl, rfl, ho, hf⟩ | ⟨rfl, rfl, ho, hc⟩ | ⟨rfl, rfl, ho, hm⟩ | ⟨rfl, rfl, ho, ⟨a, hm⟩, hf⟩)
    · exact decode_none ho
    · exact (decode_special ho).trans (decodeR_none hf)
    · exact (decode_i ho).trans (decodeI_regimm_none hc)
    · exact (decode_cop1 ho).trans (decodeFR_none hm)
    · exact (decode_cop1 ho).trans (decodeFR_arith_none hm hf)

/-- An unknown opcode is found first, so nothing else of the word matters. -/
theorem decode_unknown_opcode_iff (w : Word) :
    (∃ c, decode w = .unknownEncoding .opcode c) ↔ Opcode.lookup (field w 26 6) = none := by
  constructor
  · rintro ⟨c, h⟩
    have hv := decodeView w
    rw [h] at hv
    cases hv with
    | opcode ho => exact ho
  · exact fun h => ⟨_, decode_none h⟩

/-- Settles O6: `lookup` and `code` are inverse to each other, set by set, and the fourteen codes left are a finite check. -/
theorem closedSets : Obligations.ClosedSets := by
  unfold Obligations.ClosedSets
  exact ⟨Opcode.lookup_eq_some_iff,
    fun c f => ⟨RFunc.code_of_lookup c f, fun h => h ▸ f.lookup_code⟩,
    fun c r => ⟨RegimmCode.code_of_lookup c r, fun h => h ▸ r.lookup_code⟩,
    fun c m => ⟨Cop1Fmt.code_of_lookup c m, fun h => h ▸ m.lookup_code⟩,
    fun c f => ⟨Cop1Func.code_of_lookup c f, fun h => h ▸ f.lookup_code⟩,
    fun w => (decode_unknown_opcode_iff w).trans (Opcode.lookup_eq_none_iff _)⟩

/-! The format (R62). -/

/-- A decoded instruction's shape has the word's opcode. -/
theorem lookup_of_decode {w : Word} {i : Instr} (h : decode w = .ok i) :
    Opcode.lookup (field w 26 6) = some i.shape.opcode := by
  have hv := decodeView w
  rw [h] at hv
  cases hv with
  | r _ _ ho _ hi | fr _ _ _ _ _ ho _ hi | j _ _ ho hi | i _ _ _ ho hi => rw [ho, hi]; rfl

/-! The format of a shape is that of its opcode. -/

section
variable (sh : Shape)

theorem Shape.is_r_iff : (∃ rs rt rd shamt f, sh = .r rs rt rd shamt f) ↔ sh.opcode = .special := by
  cases sh <;> simp [Shape.opcode]

theorem Shape.is_fr_iff : (∃ m ft fs fd f nd tf, sh = .fr m ft fs fd f nd tf) ↔ sh.opcode = .cop1 := by
  cases sh <;> simp [Shape.opcode]

theorem Shape.is_j_iff : (∃ op addr, sh = .j op addr) ↔ sh.opcode = .j .j ∨ sh.opcode = .j .jal := by
  cases sh with
  | j op addr => cases op <;> simp [Shape.opcode]
  | r | fr | i => simp [Shape.opcode]

theorem Shape.is_i_iff : (∃ op rs rt imm immU c, sh = .i op rs rt imm immU c) ↔ ∃ op, sh.opcode = .i op := by
  cases sh <;> simp [Shape.opcode]

end

/-- Settles O7: the shape is that of its opcode, whose code is bits 31:26. -/
theorem formatByOpcode : Obligations.FormatByOpcode := by
  unfold Obligations.FormatByOpcode
  intro w i hd
  have hop := lookup_of_decode hd
  have hcode : ∀ o : Opcode, i.shape.opcode = o ↔ field w 26 6 = o.code := fun o => by
    rw [← Option.some_inj, ← hop, Opcode.lookup_eq_some_iff, eq_comm]
  refine ⟨i.shape.is_r_iff.trans (hcode .special), i.shape.is_fr_iff.trans (hcode .cop1),
    i.shape.is_j_iff.trans (or_congr (hcode (.j .j)) (hcode (.j .jal))), i.shape.is_i_iff.trans ?_, hop⟩
  exact exists_congr fun op => Option.some_inj.symm.trans (hop ▸ Iff.rfl)

/-! The decoded shape. -/

theorem decodeShape_ok {w : Word} {i : Instr} {sh : Shape} (h : decode w = .ok i) (hi : i.shape = sh) :
    decodeShape w = .ok sh := by
  rw [decodeShape, h, ← hi]

theorem decodeShape_error {w : Word} {f : FieldName} {c : Nat} (h : decode w = .unknownEncoding f c) :
    decodeShape w = .error (f, c) := by
  rw [decodeShape, h]

/-- Settles O8: opcode 0 selects the R arm, which reads each field of the shape it builds. -/
theorem decodesRFields : Obligations.DecodesRFields := by
  unfold Obligations.DecodesRFields
  intro w f hop hf
  have ho : Opcode.lookup (field w 26 6) = some .special := (Opcode.lookup_eq_some_iff ..).2 hop.symm
  exact decodeShape_ok ((decode_special ho).trans (decodeR_some hf)) (RFunc.shape_instr ..)

/-- Settles O9: one clause for each kind of format, and the offset of a BC word is its three low fields. -/
theorem decodesFrFields : Obligations.DecodesFrFields := by
  unfold Obligations.DecodesFrFields
  intro w hop m hm ft fs fd func
  have hdec : decode w = decodeFR w := decode_cop1 ((Opcode.lookup_eq_some_iff ..).2 hop.symm)
  refine ⟨?arith, ?arithUnknown, ?move, ?bc⟩
  case arith =>
    rintro a f rfl hf
    exact decodeShape_ok (hdec.trans (decodeFR_arith hm hf)) (Cop1Func.shape_instr ..)
  case arithUnknown =>
    rintro a rfl hf
    exact decodeShape_error (hdec.trans (decodeFR_arith_none hm hf))
  case move =>
    intro ha hb
    obtain ⟨i, hd, hi⟩ := decodeFR_move hm ha hb
    exact decodeShape_ok (hdec.trans hd) hi
  case bc =>
    rintro rfl
    refine ⟨decodeShape_ok (hdec.trans (decodeFR_bc hm)) (shape_bc1Instr_word w), ?_⟩
    have hoff := offset_fields (field w 0 16)
    rw [field_low w 11 5 (by decide), field_low w 6 5 (by decide), field_low w 0 6 (by decide)] at hoff
    rw [FPRegister.toBits_ofBits, FPRegister.toBits_ofBits]
    exact hoff

/-- Settles O10: opcodes 2 and 3 are the codes of J and JAL, and the J arm takes bits 25:0 as they are. -/
theorem decodesJFields : Obligations.DecodesJFields := by
  unfold Obligations.DecodesJFields
  intro w
  have hdec : ∀ op : JOpcode, field w 26 6 = op.code → decode w = decodeJ op w := fun op h =>
    decode_j ((Opcode.lookup_eq_some_iff ..).2 h.symm)
  exact ⟨fun h => ⟨decodeShape_ok (hdec .j h) rfl, hdec .j h⟩, fun h => ⟨decodeShape_ok (hdec .jal h) rfl, hdec .jal h⟩⟩

/-- Settles O11: every opcode but REGIMM decodes at once; a REGIMM word's `rt` is the code that was looked up. -/
theorem decodesIFields : Obligations.DecodesIFields := by
  unfold Obligations.DecodesIFields
  intro w op ho rs rt imm immU
  have hdec : decode w = decodeI op w := decode_i ho
  refine ⟨fun hop => ?plain, ?regimm, ?regimmUnknown⟩
  case plain =>
    obtain ⟨i, hd, hi⟩ := decodeI_plain hop w
    exact decodeShape_ok (hdec.trans hd) hi
  case regimm =>
    rintro rfl c hc
    refine decodeShape_ok (hdec.trans (decodeI_regimm hc)) ?_
    rw [RegimmCode.shape_instr, regimmShape, RegimmCode.code_of_lookup _ _ hc]
    rfl
  case regimmUnknown =>
    rintro rfl hc
    exact decodeShape_error (hdec.trans (decodeI_regimm_none hc))

/-! The immediate (R57). -/

/-- The immediates of a decoded I shape are the two forms of bits 15:0. -/
theorem immediates_of_decode {w : Word} {i : Instr} (hd : decode w = .ok i) {op : IOpcode} {rs rt : Register}
    {imm immU : BitVec 32} {c : Option RegimmCode} (hi : i.shape = .i op rs rt imm immU c) :
    imm = immSigned (field w 0 16) ∧ immU = immUnsigned (field w 0 16) := by
  have hv := decodeView w
  rw [hd] at hv
  cases hv with
  | r _ _ _ _ h | fr _ _ _ _ _ _ _ h | j _ _ _ h => cases h.symm.trans hi
  | i _ _ _ _ h => cases h.symm.trans hi; exact ⟨rfl, rfl⟩

/-- Settles O12: widening keeps the field's value, signed or unsigned, and 16 bits bound it. -/
theorem immediateForms : Obligations.ImmediateForms := by
  unfold Obligations.ImmediateForms
  intro w i op rs rt imm immU c hd hi
  obtain ⟨rfl, rfl⟩ := immediates_of_decode hd hi
  have hsigned : (field w 0 16).toInt = _ := field_toInt w (start := 15) (stop := 0) (by decide)
  have hunsigned : (field w 0 16).toNat = w.toNat % 2 ^ 16 := by rw [field_toNat, pow_zero, Nat.div_one]
  rw [pow_zero, Nat.div_one] at hsigned
  rw [immSigned_toInt, immUnsigned_toNat]
  refine ⟨hsigned, (field w 0 16).le_toInt, Int.le_of_lt_add_one (field w 0 16).toInt_lt, hunsigned,
    Nat.le_of_lt_succ (field w 0 16).isLt, ?_⟩
  exact (BitVec.toInt_signExtend_of_le (by decide)).symm

end Sys2Proof
end

section
/-! SUPPORT. `decode` at an index and the whole of a `decode_all` sequence (R71, R72, R262). The obligations O14 and O16
follow. -/

namespace Sys2Proof.Machine

theorem decodeAt_eq_error_iff (words : List Word) (index : Int) :
    decodeAt words index = .error .indexOutOfRange ↔ index < 0 ∨ (words.length : Int) ≤ index := by
  rcases lt_or_ge index 0 with hneg | hnonneg
  · simp [decodeAt_of_neg words index hneg, hneg]
  · obtain ⟨n, rfl⟩ := Int.eq_ofNat_of_zero_le hnonneg
    rcases lt_or_ge n words.length with hlt | hge
    · simp [decodeAt_of_lt words n hlt, hlt]
    · simp [decodeAt_of_ge words n hge, hge]

@[simp] theorem decodeAll_length (words : List Word) : (decodeAll words).length = words.length := List.length_map ..

theorem decodeAll_getElem? (words : List Word) (n : Nat) : (decodeAll words)[n]? = words[n]?.map decode := List.getElem?_map ..

/-- Settles O14: the index is negative, inside the sequence or beyond it. -/
theorem decodeIndexPrecondition : Obligations.DecodeIndexPrecondition := by
  unfold Obligations.DecodeIndexPrecondition
  refine ⟨decodeAt_eq_error_iff, decodeAt_of_lt, fun words n r h => ?_⟩
  rw [decodeAll_getElem?, Option.map_eq_some_iff] at h
  obtain ⟨w, hw, rfl⟩ := h
  obtain ⟨hn, rfl⟩ := List.getElem?_eq_some_iff.1 hw
  exact decodeAt_of_lt words n hn

/-- Asking a sequence as often as it has words left gives the results of those words in order and leaves it at its end. -/
theorem State.takes_rest {n : Nat} (k : Nat) {s : State} {q : DecodeSeq} (hq : s.seqs[n]? = some q)
    (hk : q.pos + k = q.words.length) :
    (s.takes (List.replicate k n)).1 = (decodeAll (q.words.drop q.pos)).map (fun r => (n, some r)) ∧
    (s.takes (List.replicate k n)).2.seqs[n]? = some { words := q.words, pos := q.words.length } := by
  induction k generalizing s q with
  | zero =>
    have hpos : q.pos = q.words.length := hk
    simp [← hpos, hq, decodeAll]
  | succ k ih =>
    have hlt : q.pos < q.words.length := by omega
    have hleft : (s.decodeAllNext n).2.seqs[n]? = some { words := q.words, pos := q.pos + 1 } := by
      rw [s.decodeAllNext_self n hq, DecodeSeq.next_of_lt hlt]
    obtain ⟨hgiven, hend⟩ := ih hleft (by simp only; omega)
    have hgives : (s.decodeAllNext n).1 = some (decode q.words[q.pos]) := by
      rw [s.decodeAllNext_of_some n hq, DecodeSeq.next_of_lt hlt]
    rw [List.replicate_succ, State.takes_cons, hgives, hgiven, List.drop_eq_getElem_cons hlt]
    exact ⟨rfl, hend⟩

/-- Settles O16: `State.takes_rest` from position 0. -/
theorem decodeAllSequence : Obligations.DecodeAllSequence := by
  unfold Obligations.DecodeAllSequence
  intro s words n given
  obtain ⟨hgiven, hend⟩ := State.takes_rest words.length (s.decodeAllNew_made words) (Nat.zero_add _)
  refine ⟨hgiven, congrArg Prod.fst (given.2.decodeAllNext_exhausted n hend (Nat.le_refl _)), decodeAll_length words,
    fun k h => ?_⟩
  rw [decodeAll_getElem?, List.getElem?_eq_getElem h, Option.map_some]

end Sys2Proof.Machine
end

section
/-! SUPPORT. Where an operation's result goes (R85, R87, R89): `WriteResult32` as a whole, and the trapping additions by their
exact sum. The obligations O22 and O39 follow. -/

namespace Sys2Proof.Machine

variable (m : W32Hi) (rf : RegFile) (dst : Register)

@[simp] theorem RegFile.writeResult32_zero (p : Word) : rf.writeResult32 m Register.zero p = rf := by
  cases m <;> rfl

theorem RegFile.holds32_writeResult32 (p : Word) : Holds32 m rf (rf.writeResult32 m dst p) dst p := by
  refine ⟨?zero, fun h => ⟨rf.readLo_writeResult32 m h p, ?hi⟩⟩
  case zero => rintro rfl; exact rf.writeResult32_zero m p
  case hi =>
    have hmsb : p.getLsbD 31 = p.msb := (BitVec.msb_eq_getLsbD_last p).symm
    rw [hmsb]
    exact rf.readHi_writeResult32 m h p

/-- Settles O22: the register written as `holds32_writeResult32` gives it, and the frame. -/
theorem writeResult32Effect : Obligations.WriteResult32Effect := by
  unfold Obligations.WriteResult32Effect
  exact fun m rf r p => ⟨rf.holds32_writeResult32 m r p, fun q hq => rf.read_writeResult32_other m hq p⟩

theorem fitsSigned_32_iff (v : Int) : fitsSigned 32 v = true ↔ InRange32 v := fitsSigned_iff 32 v

theorem fitsSigned_64_iff (v : Int) : fitsSigned 64 v = true ↔ InRange64 v := fitsSigned_iff 64 v

variable {rf dst} {a b : Int}

theorem addTrap32_of_inRange (h : InRange32 (a + b)) :
    addTrap32 m dst a b rf = .ok (rf.writeResult32 m dst (BitVec.ofInt 32 (a + b))) :=
  if_pos ((fitsSigned_32_iff _).2 h)

theorem addTrap32_of_not_inRange (h : ¬ InRange32 (a + b)) : addTrap32 m dst a b rf = .overflowFault :=
  if_neg (mt (fitsSigned_32_iff _).1 h)

theorem addTrap64_of_inRange (h : InRange64 (a + b)) :
    addTrap64 dst a b rf = .ok (rf.write64 dst (BitVec.ofInt 64 (a + b))) :=
  if_pos ((fitsSigned_64_iff _).2 h)

theorem addTrap64_of_not_inRange (h : ¬ InRange64 (a + b)) : addTrap64 dst a b rf = .overflowFault :=
  if_neg (mt (fitsSigned_64_iff _).1 h)

theorem immInt_eq (imm : BitVec 16) : immInt imm = imm.toInt := immSigned_toInt imm

/-! With destination `r0` a success writes nothing (R89). -/

theorem addTrap32_zero (h : InRange32 (a + b)) : addTrap32 m Register.zero a b rf = .ok rf := by
  rw [addTrap32_of_inRange m h, RegFile.writeResult32_zero]

theorem addTrap64_zero (h : InRange64 (a + b)) : addTrap64 Register.zero a b rf = .ok rf := by
  rw [addTrap64_of_inRange h, RegFile.write64_zero]

theorem addWrap32_zero (a b : Nat) : addWrap32 m Register.zero a b rf = .ok rf := by
  rw [addWrap32_eq, RegFile.writeResult32_zero]

theorem addWrap64_zero (a b : Nat) : addWrap64 Register.zero a b rf = .ok rf := by
  rw [addWrap64_eq, RegFile.write64_zero]

/-- An instruction whose operation has a known outcome leaves what the driver makes of that outcome (R277). -/
theorem exec_of_result {i : Instr} {s : State} {r r' : ExecResult} (he : exec i s = .next (s.settle r)) (hr : r = r') :
    exec i s = .next (s.settle r') := hr ▸ he

/-- Settles O39: each shared computation into `r0` gives the Register File back or the fault, and the driver settles that. -/
theorem destinationZero : Obligations.DestinationZero := by
  unfold Obligations.DestinationZero
  intro rs rt shamt imm s
  rw [← immInt_eq imm]
  exact ⟨fun h => exec_of_result rfl (addTrap32_zero _ h),
    fun h => exec_of_result rfl (addTrap32_of_not_inRange _ h),
    fun h => exec_of_result rfl (addTrap32_zero _ h),
    fun h => exec_of_result rfl (addTrap32_of_not_inRange _ h),
    exec_of_result rfl (addWrap32_zero ..),
    exec_of_result rfl (addWrap32_zero ..),
    fun h => exec_of_result rfl (addTrap64_zero h),
    fun h => exec_of_result rfl (addTrap64_of_not_inRange h),
    fun h => exec_of_result rfl (addTrap64_zero h),
    fun h => exec_of_result rfl (addTrap64_of_not_inRange h),
    exec_of_result rfl (addWrap64_zero ..),
    exec_of_result rfl (addWrap64_zero ..)⟩

end Sys2Proof.Machine
end

section
/-! SUPPORT. The three ends of an instruction (R82, R83): success, with the registers it names as destinations written, or one
of two recorded outcomes, with nothing else changed. The obligations O40, O42 and O45 follow. -/

namespace Sys2Proof.Machine

/-- What `exec` can answer, by how the instruction ended: it retired, overflowed or was refused. -/
inductive Ends (i : Instr) (s : State) : State → Prop where
  | retired (b : Bool) (rf : RegFile) (hdraw : b = true → i.shape.isDivision = true)
      (hregs : ∀ r, r ∉ i.shape.dests → rf.read r = s.rf.read r) (hzero : rf.slots[0] = s.rf.slots[0]) :
      Ends i s ((s.drawIf b).retire rf)
  | overflowed (hdiv : i.shape.isDivision = false) : Ends i s (Overflowed s)
  | refused (hdiv : i.shape.isDivision = false) (hexec : i.shape.isExecuted = false) : Ends i s (Refused i s)

/-- An outcome that is no success is that of no division, which alone takes draws. -/
theorem Answers.no_draw {i : Instr} {rf : RegFile} {b : Bool} {r : ExecResult} (h : Answers i rf b r)
    (hr : ∀ rf', r ≠ .ok rf') : i.shape.isDivision = false ∧ b = false := by
  have hdiv : i.shape.isDivision ≠ true := fun hd => (h.division hd).elim hr
  exact ⟨Bool.eq_false_iff.2 hdiv, Bool.eq_false_iff.2 (mt h.draw hdiv)⟩

theorem exec_ends (i : Instr) (s : State) : ∃ t, exec i s = .next t ∧ Ends i s t := by
  obtain ⟨b, r, he, ha⟩ := exec_cases i s
  refine ⟨_, he, ?_⟩
  cases r with
  | ok rf =>
    obtain ⟨hregs, hzero⟩ := ha.keeps.of rf rfl
    exact .retired b rf ha.draw hregs hzero
  | overflowFault =>
    obtain ⟨hdiv, rfl⟩ := ha.no_draw nofun
    exact .overflowed hdiv
  | unimplemented j =>
    obtain ⟨hdiv, rfl⟩ := ha.no_draw nofun
    obtain ⟨rfl, hexec⟩ := ha.refusal j rfl
    exact .refused hdiv hexec

theorem ends_of_exec {i : Instr} {s t : State} (h : exec i s = .next t) : Ends i s t := by
  obtain ⟨t', he, hends⟩ := exec_ends i s
  cases h.symm.trans he
  exact hends

/-- A division always completes (R101). -/
theorem Ends.division {i : Instr} {s t : State} (h : Ends i s t) (hdiv : i.shape.isDivision = true) :
    t.k = s.k + 1 ∧ t.status = s.status := by
  cases h with
  | retired b rf => simp
  | overflowed hno | refused hno => exact nomatch hno.symm.trans hdiv

/-- Settles O40: the three ends. -/
theorem atomicCommit : Obligations.AtomicCommit := by
  unfold Obligations.AtomicCommit
  intro i s
  obtain ⟨t, he, hends⟩ := exec_ends i s
  refine ⟨t, he, ?ends, hends.division, ?registers⟩
  case ends =>
    cases hends with
    | retired b rf => exact .inl (by simp)
    | overflowed => exact .inr (.inl rfl)
    | refused => exact .inr (.inr rfl)
  case registers =>
    intro hk
    cases hends with
    | retired b rf => exact absurd (by simp) hk
    | overflowed | refused => rfl

/-- Settles O42: a success keeps what it does not name, and the other two ends keep everything. -/
theorem onlyNamedRegistersChange : Obligations.OnlyNamedRegistersChange := by
  unfold Obligations.OnlyNamedRegistersChange Frame
  intro i s t he
  cases ends_of_exec he with
  | retired b rf hdraw hregs hzero =>
    refine ⟨⟨hregs, by simp, by simp⟩, rfl, hzero, fun hdiv => ?_⟩
    have hb : b = false := Bool.eq_false_iff.2 fun h => nomatch hdiv.symm.trans (hdraw h)
    simp [hb]
  | overflowed | refused => exact ⟨⟨fun _ _ => rfl, rfl, rfl⟩, rfl, rfl, fun _ => rfl⟩

/-- Every instruction outside the dispatch table has the meaning `unimplemented` (R83). -/
theorem exec_of_not_executed {i : Instr} (h : i.shape.isExecuted = false) (s : State) :
    exec i s = .next (Refused i s) := by
  cases i
  case add | addu | dadd | daddu | addi | addiu | daddi | daddiu | div | divu | ddiv | ddivu => exact nomatch h
  all_goals rfl

/-- Settles O45: outside the dispatch table by cases of the instruction; inside it, an instruction of a running state
retires into one or records `OverflowFault`. -/
theorem unexecutedRefused : Obligations.UnexecutedRefused := by
  unfold Obligations.UnexecutedRefused
  refine fun i s => ⟨fun h => exec_of_not_executed h s, fun hexec hs he => ?_⟩
  generalize ht : Refused i s = t at he
  have hstatus := congrArg State.status ht
  cases ends_of_exec he with
  | retired b rf => simp [Refused, hs] at hstatus
  | overflowed => simp [Refused, Overflowed] at hstatus
  | refused _ hno => exact nomatch hno.symm.trans hexec

end Sys2Proof.Machine
end

section
/-! SUPPORT. The 32-bit operations read the lo halves of their sources alone (R84): over two Register Files that agree there
they have the same outcome and the same lo half in each destination. The obligation O38 follows. -/

namespace Sys2Proof.Machine

theorem s32_congr {rf rf' : RegFile} {r : Register} (h : rf'.readLo r = rf.readLo r) : s32 rf' r = s32 rf r :=
  congrArg BitVec.toInt h

theorem u32_congr {rf rf' : RegFile} {r : Register} (h : rf'.readLo r = rf.readLo r) : u32 rf' r = u32 rf r :=
  congrArg BitVec.toNat h

/-- The lo half after the same 32-bit result is the same over any two Register Files, `r0` included. -/
theorem RegFile.readLo_writeResult32_congr (rf rf' : RegFile) (m : W32Hi) (r : Register) (p : Word) :
    (rf'.writeResult32 m r p).readLo r = (rf.writeResult32 m r p).readLo r := by
  by_cases h : r = Register.zero
  · subst h; rfl
  · rw [rf.readLo_writeResult32 m h, rf'.readLo_writeResult32 m h]

/-- The same outcome of two executions, with the same lo half in each of `dests` if it is success. -/
inductive ExecResult.AgreeLo (dests : List Register) : ExecResult → ExecResult → Prop where
  | ok {rf rf' : RegFile} (h : ∀ q ∈ dests, rf'.readLo q = rf.readLo q) : AgreeLo dests (.ok rf) (.ok rf')
  | overflowFault : AgreeLo dests .overflowFault .overflowFault

section
variable (m : W32Hi) (dst : Register) (draw : DWord) (rf rf' : RegFile)

theorem agreeLo_writeResult32 (p : Word) :
    (ExecResult.ok (rf.writeResult32 m dst p)).AgreeLo [dst] (.ok (rf'.writeResult32 m dst p)) :=
  .ok (List.forall_mem_singleton.2 (rf.readLo_writeResult32_congr rf' m dst p))

theorem agreeLo_addTrap32 {a a' b b' : Int} (ha : a' = a) (hb : b' = b) :
    (addTrap32 m dst a b rf).AgreeLo [dst] (addTrap32 m dst a' b' rf') := by
  subst ha hb
  unfold addTrap32
  split
  · exact agreeLo_writeResult32 ..
  · exact .overflowFault

theorem agreeLo_addWrap32 {a a' b b' : Nat} (ha : a' = a) (hb : b' = b) :
    (addWrap32 m dst a b rf).AgreeLo [dst] (addWrap32 m dst a' b' rf') := by
  subst ha hb
  exact agreeLo_writeResult32 ..

theorem agreeLo_commitDiv32 (q r : Word) :
    (commitDiv32 m q r rf).AgreeLo [Register.lo, Register.hi] (commitDiv32 m q r rf') := by
  refine .ok (List.forall_mem_cons.2 ⟨?lo, List.forall_mem_singleton.2 (RegFile.readLo_writeResult32_congr ..)⟩)
  case lo =>
    have hlo (f : RegFile) := f.readLo_writeResult32_other m (show Register.lo ≠ Register.hi by decide) r
    rw [hlo, hlo]
    exact RegFile.readLo_writeResult32_congr ..

/-- By zero, where both sides take the same draw (R101). -/
theorem agreeLo_commitDivZero32 (a : Word) :
    (commitDivZero32 m draw a rf).AgreeLo [Register.lo, Register.hi] (commitDivZero32 m draw a rf') := by
  refine .ok (List.forall_mem_cons.2 ⟨?lo, List.forall_mem_singleton.2 ?hi⟩)
  case lo =>
    have hlo (f : RegFile) := f.readLo_write64_other (show Register.lo ≠ Register.hi by decide) draw
    rw [hlo, hlo]
    exact RegFile.readLo_writeResult32_congr ..
  case hi => rw [RegFile.readLo_write64_same _ (by decide), RegFile.readLo_write64_same _ (by decide)]

variable {rf rf'} {rs rt : Register} (hs : rf'.readLo rs = rf.readLo rs) (ht : rf'.readLo rt = rf.readLo rt)
include hs ht

theorem agreeLo_opDiv : (opDiv m draw rs rt rf).AgreeLo [Register.lo, Register.hi] (opDiv m draw rs rt rf') := by
  unfold opDiv
  rw [s32_congr hs, s32_congr ht]
  dsimp only
  split
  · exact agreeLo_commitDivZero32 ..
  · exact agreeLo_commitDiv32 ..

theorem agreeLo_opDivu : (opDivu m draw rs rt rf).AgreeLo [Register.lo, Register.hi] (opDivu m draw rs rt rf') := by
  unfold opDivu
  rw [u32_congr hs, u32_congr ht]
  dsimp only
  split
  · exact agreeLo_commitDivZero32 ..
  · exact agreeLo_commitDiv32 ..

end

/-- Outcomes that agree are settled into states that agree, whichever draws are taken. -/
theorem State.settle_agreeLo {dests : List Register} {r r' : ExecResult} (h : r.AgreeLo dests r') (s : State)
    (rf' : RegFile) (b b' : Bool) :
    let t := (s.drawIf b).settle r
    let t' := ({ s with rf := rf' }.drawIf b').settle r'
    t'.k = t.k ∧ t'.status = t.status ∧ (t.k = s.k + 1 → ∀ q ∈ dests, t'.rf.readLo q = t.rf.readLo q) := by
  cases h with
  | ok h => simpa using h
  | overflowFault => simp

section
variable {i : Instr} {s : State} {rf' : RegFile} {r r' : ExecResult}

theorem exec_addition_agreeLo (he : exec i s = .next (s.settle r))
    (he' : exec i { s with rf := rf' } = .next ({ s with rf := rf' }.settle r')) {dst : Register} (h : r.AgreeLo [dst] r') :
    ∃ t t', exec i s = .next t ∧ exec i { s with rf := rf' } = .next t' ∧ t'.k = t.k ∧ t'.status = t.status ∧
      (t.k = s.k + 1 → t'.rf.readLo dst = t.rf.readLo dst) := by
  obtain ⟨hk, hstatus, hdest⟩ := State.settle_agreeLo h s rf' false false
  exact ⟨_, _, he, he', hk, hstatus, fun hret => hdest hret dst (.head _)⟩

theorem exec_division_agreeLo (hdiv : i.shape.isDivision = true) {b b' : Bool}
    (he : exec i s = .next ((s.drawIf b).settle r))
    (he' : exec i { s with rf := rf' } = .next (({ s with rf := rf' }.drawIf b').settle r'))
    (h : r.AgreeLo [Register.lo, Register.hi] r') :
    ∃ t t', exec i s = .next t ∧ exec i { s with rf := rf' } = .next t' ∧ t'.k = t.k ∧ t'.status = t.status ∧
      t'.rf.readLo Register.lo = t.rf.readLo Register.lo ∧ t'.rf.readLo Register.hi = t.rf.readLo Register.hi := by
  obtain ⟨hk, hstatus, hdest⟩ := State.settle_agreeLo h s rf' b b'
  have hret := ((ends_of_exec he).division hdiv).1
  exact ⟨_, _, he, he', hk, hstatus, hdest hret _ (.head _), hdest hret _ (.tail _ (.head _))⟩

end

/-- Settles O38: each operation's operands are the same on both sides, so its outcomes agree, and so do the next states. -/
theorem upperHalvesIgnored : Obligations.UpperHalvesIgnored := by
  unfold Obligations.UpperHalvesIgnored
  intro rs rt rd shamt imm s rf' hs
  refine ⟨List.forall_mem_cons.2 ⟨?addi, List.forall_mem_singleton.2 ?addiu⟩, fun ht =>
    ⟨List.forall_mem_cons.2 ⟨?add, List.forall_mem_singleton.2 ?addu⟩,
      List.forall_mem_cons.2 ⟨?div, List.forall_mem_singleton.2 ?divu⟩⟩⟩
  case addi => exact exec_addition_agreeLo rfl rfl (agreeLo_addTrap32 _ rt _ _ (s32_congr hs) rfl)
  case addiu => exact exec_addition_agreeLo rfl rfl (agreeLo_addWrap32 _ rt _ _ (u32_congr hs) rfl)
  case add => exact exec_addition_agreeLo rfl rfl (agreeLo_addTrap32 _ rd _ _ (s32_congr hs) (s32_congr ht))
  case addu => exact exec_addition_agreeLo rfl rfl (agreeLo_addWrap32 _ rd _ _ (u32_congr hs) (u32_congr ht))
  case div => exact exec_division_agreeLo rfl rfl rfl (agreeLo_opDiv _ _ hs ht)
  case divu => exact exec_division_agreeLo rfl rfl rfl (agreeLo_opDivu _ _ hs ht)

end Sys2Proof.Machine
end

section
/-! SUPPORT. The eight additions (R91 to R98): the words that decode to them, the completed addition as a whole (the sum in
the destination, the frame, the index one further) at both widths, and the agreement of the trapping with the wrapping
forms. The obligations O23 to O30 and O43 follow. -/

namespace Sys2Proof

/-- A word of the R format with the code of `f` decodes to `f` with its fields (R52, R64). -/
theorem decode_of_func {w : Word} (f : RFunc) (ho : field w 26 6 = Opcode.special.code) (hf : field w 0 6 = f.code) :
    decode w = .ok (f.instr (.ofBits (field w 21 5)) (.ofBits (field w 16 5)) (.ofBits (field w 11 5)) (field w 6 5)) :=
  (decode_special (ho ▸ Opcode.lookup_special)).trans (decodeR_some (hf ▸ f.lookup_code))

theorem decode_of_iOpcode {w : Word} (op : IOpcode) (ho : field w 26 6 = op.code) : decode w = decodeI op w :=
  decode_i (ho ▸ Opcode.lookup_i op)

/-- The signed and the unsigned values of two words have the same sum modulo `2^n`. -/
theorem ofInt_toInt_add {n : Nat} (x y : BitVec n) :
    BitVec.ofInt n (x.toInt + y.toInt) = BitVec.ofNat n (x.toNat + y.toNat) :=
  calc BitVec.ofInt n (x.toInt + y.toInt)
    _ = x + y := by rw [BitVec.ofInt_add, BitVec.ofInt_toInt, BitVec.ofInt_toInt]
    _ = BitVec.ofNat n (x.toNat + y.toNat) := by simp only [BitVec.ofNat_add, BitVec.ofNat_toNat, BitVec.setWidth_eq]

namespace Machine

theorem RegFile.holds64_write64 (rf : RegFile) (dst : Register) (p : DWord) : Holds64 rf (rf.write64 dst p) dst p := by
  refine ⟨?zero, fun h => rf.read_write64_same h p⟩
  case zero => rintro rfl; exact rf.write64_zero p

section
variable {i : Instr} {s : State} {dst : Register}

/-- A success that keeps every register outside `dests` retires (R82, R277). -/
theorem ExecResult.Keeps.retires {dests : List Register} {rf : RegFile} (h : (ExecResult.ok rf).Keeps dests s.rf) :
    Retires dests s (s.retire rf) := by
  obtain ⟨hregs, -⟩ := h.of rf rfl
  exact ⟨⟨hregs, rfl, rfl⟩, rfl, rfl, rfl⟩

theorem exec_writeResult32 {p : Word}
    (he : exec i s = .next (s.settle (.ok (s.rf.writeResult32 Config.w32Hi dst p)))) :
    ∃ t, exec i s = .next t ∧ Holds32 Config.w32Hi s.rf t.rf dst p ∧ Retires [dst] s t :=
  ⟨_, he, s.rf.holds32_writeResult32 .., (keeps_writeResult32 ..).retires⟩

theorem exec_write64 {p : DWord} (he : exec i s = .next (s.settle (.ok (s.rf.write64 dst p)))) :
    ∃ t, exec i s = .next t ∧ Holds64 s.rf t.rf dst p ∧ Retires [dst] s t :=
  ⟨_, he, s.rf.holds64_write64 .., (keeps_write64 ..).retires⟩

/-- A trapping 32-bit addition completes or faults by its exact sum (R87, R91). -/
theorem exec_addTrap32 {a b : Int} (he : exec i s = .next (s.settle (addTrap32 Config.w32Hi dst a b s.rf))) :
    (InRange32 (a + b) → ∃ t, exec i s = .next t ∧
      Holds32 Config.w32Hi s.rf t.rf dst (BitVec.ofInt 32 (a + b)) ∧ Retires [dst] s t) ∧
    (¬ InRange32 (a + b) → exec i s = .next (Overflowed s)) :=
  ⟨fun h => exec_writeResult32 (exec_of_result he (addTrap32_of_inRange _ h)),
    fun h => exec_of_result he (addTrap32_of_not_inRange _ h)⟩

/-- A trapping 64-bit addition completes or faults by its exact sum (R87, R95). -/
theorem exec_addTrap64 {a b : Int} (he : exec i s = .next (s.settle (addTrap64 dst a b s.rf))) :
    (InRange64 (a + b) → ∃ t, exec i s = .next t ∧
      Holds64 s.rf t.rf dst (BitVec.ofInt 64 (a + b)) ∧ Retires [dst] s t) ∧
    (¬ InRange64 (a + b) → exec i s = .next (Overflowed s)) :=
  ⟨fun h => exec_write64 (exec_of_result he (addTrap64_of_inRange h)),
    fun h => exec_of_result he (addTrap64_of_not_inRange h)⟩

end

/-! The eight additions: the word that decodes to each, and its shared computation. -/

/-- Settles O23: the R arm at the code of ADD, and a trapping 32-bit addition of the signed lo halves. -/
theorem addResult : Obligations.AddResult := by
  unfold Obligations.AddResult
  exact ⟨fun w => decode_of_func .add, fun rs rt rd shamt s => exec_addTrap32 rfl⟩

/-- Settles O24: a trapping 32-bit addition, whose sign-extended immediate is the field's signed value (`immInt_eq`). -/
theorem addiResult : Obligations.AddiResult := by
  unfold Obligations.AddiResult
  refine ⟨fun w => decode_of_iOpcode .addi, fun rs rt imm s => ?_⟩
  rw [← immInt_eq imm]
  exact exec_addTrap32 rfl

/-- Settles O25: the addition modulo 2^32 is a success that writes its sum. -/
theorem adduResult : Obligations.AdduResult := by
  unfold Obligations.AdduResult
  exact ⟨fun w => decode_of_func .addu, fun rs rt rd shamt s => exec_writeResult32 rfl⟩

/-- Settles O26: a success that writes its sum, in which the zero-extended immediate is the field's unsigned value
(`immUnsigned_toNat`). -/
theorem addiuResult : Obligations.AddiuResult := by
  unfold Obligations.AddiuResult
  refine ⟨fun w => decode_of_iOpcode .addiu, fun rs rt imm s => ?_⟩
  rw [← immUnsigned_toNat imm]
  exact exec_writeResult32 rfl

/-- Settles O27: the R arm at the code of DADD, and a trapping 64-bit addition. -/
theorem daddResult : Obligations.DaddResult := by
  unfold Obligations.DaddResult
  exact ⟨fun w => decode_of_func .dadd, fun rs rt rd shamt s => exec_addTrap64 rfl⟩

/-- Settles O28: at 64 bits too the immediate is the field's signed value (`immInt_eq`). -/
theorem daddiResult : Obligations.DaddiResult := by
  unfold Obligations.DaddiResult
  refine ⟨fun w => decode_of_iOpcode .daddi, fun rs rt imm s => ?_⟩
  rw [← immInt_eq imm]
  exact exec_addTrap64 rfl

/-- Settles O29: the addition modulo 2^64 is a success that writes its sum. -/
theorem dadduResult : Obligations.DadduResult := by
  unfold Obligations.DadduResult
  exact ⟨fun w => decode_of_func .daddu, fun rs rt rd shamt s => exec_write64 rfl⟩

/-- Settles O30: at 64 bits too the immediate is the field's unsigned value (`immUnsigned_toNat`). -/
theorem daddiuResult : Obligations.DaddiuResult := by
  unfold Obligations.DaddiuResult
  refine ⟨fun w => decode_of_iOpcode .daddiu, fun rs rt imm s => ?_⟩
  rw [← immUnsigned_toNat imm]
  exact exec_write64 rfl

/-! Where the trapping addition does not fault, the wrapping one of the same patterns has the same result. -/

theorem addWrap32_eq_addTrap32 (m : W32Hi) (dst : Register) (rf : RegFile) {x y : Word}
    (h : addTrap32 m dst x.toInt y.toInt rf ≠ .overflowFault) :
    addWrap32 m dst x.toNat y.toNat rf = addTrap32 m dst x.toInt y.toInt rf := by
  obtain ⟨-, hok⟩ | ⟨-, hfault⟩ := addTrap32_cases m dst rf x.toInt y.toInt
  · rw [hok, addWrap32_eq, ofInt_toInt_add]
  · exact absurd hfault h

theorem addWrap64_eq_addTrap64 (dst : Register) (rf : RegFile) {x y : DWord}
    (h : addTrap64 dst x.toInt y.toInt rf ≠ .overflowFault) :
    addWrap64 dst x.toNat y.toNat rf = addTrap64 dst x.toInt y.toInt rf := by
  obtain ⟨-, hok⟩ | ⟨-, hfault⟩ := addTrap64_cases dst rf x.toInt y.toInt
  · rw [hok, addWrap64_eq, ofInt_toInt_add]
  · exact absurd hfault h

/-- An instruction whose result is that of `i` unless `i` overflows follows `i` into every running state. -/
theorem exec_of_running {i j : Instr} {s t : State} {r r' : ExecResult} (hi : exec i s = .next (s.settle r))
    (hj : exec j s = .next (s.settle r')) (hr : r ≠ .overflowFault → r' = r) (ht : t.status = .running)
    (he : exec i s = .next t) : exec j s = .next t := by
  cases hi.symm.trans he
  have hne : r ≠ .overflowFault := by rintro rfl; exact nomatch ht
  rw [hj, hr hne]

/-- Settles O43: a running next state is no fault, so the wrapping addition has the trapping one's result. -/
theorem adduAgreesWithAdd : Obligations.AdduAgreesWithAdd := by
  unfold Obligations.AdduAgreesWithAdd
  exact fun rs rt rd shamt s t _ ht =>
    ⟨exec_of_running rfl rfl (addWrap32_eq_addTrap32 _ _ _) ht, exec_of_running rfl rfl (addWrap64_eq_addTrap64 _ _) ht⟩

end Machine

end Sys2Proof
end

section
/-! SUPPORT. The four divisions (R99 to R105): the completed division as a whole (`lo` and `hi` as each width commits them,
the frame, the index one further, the draw), and the law of the quotient and remainder. The obligations O31 to O37 follow. -/

namespace Sys2Proof

/-! R99 for the remainder as the operations compute it. -/

/-- The signed law: the remainder is `Int.tmod`, whose sign is that of the dividend. -/
theorem signed_division_law (a : Int) {b : Int} (hb : b ≠ 0) :
    let r := a - a.tdiv b * b
    a = a.tdiv b * b + r ∧ |r| < |b| ∧ (r = 0 ∨ (0 < r ↔ 0 < a)) := by
  intro r
  have hr : r = a.tmod b := by rw [Int.tmod_def, Int.mul_comm b]
  rw [hr]
  refine ⟨(Int.tdiv_mul_add_tmod a b).symm, ?size, ?sign⟩
  case size =>
    rw [Int.abs_eq_natAbs, Int.abs_eq_natAbs, Int.natAbs_tmod]
    exact_mod_cast Nat.mod_lt _ (Int.natAbs_pos.2 hb)
  case sign =>
    have hsign := Int.sign_tmod a b
    split at hsign
    case isTrue => exact .inl (Int.sign_eq_zero_iff_zero.1 hsign)
    case isFalse => exact .inr (by rw [← Int.sign_eq_one_iff_pos, hsign, Int.sign_eq_one_iff_pos])

/-- The unsigned law: the remainder is that of the natural numbers. -/
theorem unsigned_division_law (a : Nat) {b : Nat} (hb : b ≠ 0) :
    let r := a - a / b * b
    a = a / b * b + r ∧ r < b := by
  intro r
  have hr : r = a % b := Nat.mod_eq_sub_div_mul.symm
  rw [hr]
  exact ⟨(Nat.div_add_mod' a b).symm, Nat.mod_lt a (Nat.pos_of_ne_zero hb)⟩

/-! A pattern and its value: zero together, and the value's pattern is the pattern. -/

section
variable {n : Nat} {x : BitVec n}

theorem toInt_eq_zero_iff : x.toInt = 0 ↔ x = 0 := by
  rw [← BitVec.toInt_inj]
  exact Eq.congr_right BitVec.toInt_zero.symm

theorem toNat_eq_zero_iff : x.toNat = 0 ↔ x = 0 := by
  rw [← BitVec.toNat_inj]
  exact Eq.congr_right BitVec.toNat_zero.symm

theorem ofNat_toNat_self : BitVec.ofNat n x.toNat = x :=
  (BitVec.ofNat_toNat n x).trans (BitVec.setWidth_eq x)

end

namespace Machine

section
variable {m : W32Hi} {rf rf' : RegFile} {r : Register}

theorem Holds32.readLo_eq {p : Word} (h : Holds32 m rf rf' r p) (h0 : r ≠ Register.zero) : rf'.readLo r = p :=
  (h.2 h0).1

theorem Holds64.read_eq {p : DWord} (h : Holds64 rf rf' r p) (h0 : r ≠ Register.zero) : rf'.read r = p := h.2 h0

/-- Off `r0` what a register holds is seen in that register alone, before and after. -/
theorem Holds32.of_read_eq {rf₁ rf₁' : RegFile} {p : Word} (h : Holds32 m rf rf' r p) (h0 : r ≠ Register.zero)
    (hread : rf₁.read r = rf.read r) (hread' : rf₁'.read r = rf'.read r) : Holds32 m rf₁ rf₁' r p := by
  obtain ⟨-, hhi⟩ := RegFile.halves_eq hread
  obtain ⟨hlo', hhi'⟩ := RegFile.halves_eq hread'
  refine ⟨fun hz => absurd hz h0, fun _ => ?_⟩
  rw [hlo', hhi', hhi]
  exact h.2 h0

theorem Holds64.of_read {p : DWord} (h0 : r ≠ Register.zero) (h : rf'.read r = p) : Holds64 rf rf' r p :=
  ⟨fun hz => absurd hz h0, fun _ => h⟩

end

/-! What each commit leaves in `lo` and `hi`: the two are different registers, and neither is `r0`. -/

section
variable (m : W32Hi) (rf : RegFile)

theorem holds32_commitDiv32 (q r : Word) :
    let rf' := (rf.writeResult32 m Register.lo q).writeResult32 m Register.hi r
    Holds32 m rf rf' Register.lo q ∧ Holds32 m rf rf' Register.hi r :=
  ⟨(rf.holds32_writeResult32 m Register.lo q).of_read_eq (by decide) rfl
      (RegFile.read_writeResult32_other _ m (by decide) r),
    (RegFile.holds32_writeResult32 m _ Register.hi r).of_read_eq (by decide)
      (rf.read_writeResult32_other m (by decide) q).symm rfl⟩

theorem holds32_commitDivZero32 (draw : DWord) (a : Word) :
    let rf' := (rf.writeResult32 m Register.lo a).write64 Register.hi draw
    Holds32 m rf rf' Register.lo a ∧ rf'.read Register.hi = draw :=
  ⟨(rf.holds32_writeResult32 m Register.lo a).of_read_eq (by decide) rfl
      (RegFile.read_write64_other _ (by decide) draw),
    RegFile.read_write64_same _ (by decide) draw⟩

theorem read_commitDiv64 (q r : DWord) :
    let rf' := (rf.write64 Register.lo q).write64 Register.hi r
    rf'.read Register.lo = q ∧ rf'.read Register.hi = r :=
  ⟨(RegFile.read_write64_other _ (by decide) r).trans (rf.read_write64_same (by decide) q),
    RegFile.read_write64_same _ (by decide) r⟩

end

/-- The whole outcome of a division `i`, `holds` saying what it is for a register to hold a result of the division's width:
`a` in `lo` and the draw in `hi` by zero, else `q` and `r` (R101 to R105). -/
def DividesTo {n : Nat} (holds : RegFile → RegFile → Register → BitVec n → Prop) (i : Instr) (s : State) (byZero : Prop)
    (a q r : BitVec n) : Prop :=
  ∃ t, exec i s = .next t ∧ Divides byZero s t ∧
    (byZero → holds s.rf t.rf Register.lo a ∧ t.rf.read Register.hi = Config.div0Hi s.draws) ∧
    (¬ byZero → holds s.rf t.rf Register.lo q ∧ holds s.rf t.rf Register.hi r)

section
variable {n : Nat} {holds : RegFile → RegFile → Register → BitVec n → Prop} {i : Instr} {s : State} {byZero : Prop}

theorem DividesTo.of_zero {a q r : BitVec n} (h : DividesTo holds i s byZero a q r) (hz : byZero) {x : BitVec n}
    (hx : a = x) : ∃ t, exec i s = .next t ∧ t.status = s.status ∧ t.k = s.k + 1 ∧ holds s.rf t.rf Register.lo x := by
  obtain ⟨t, he, ⟨-, hk, hstatus, -⟩, hzero, -⟩ := h
  exact ⟨t, he, hstatus, hk, hx ▸ (hzero hz).1⟩

theorem DividesTo.of_nonzero {a q r : BitVec n} (h : DividesTo holds i s byZero a q r) (hz : ¬ byZero) :
    ∃ t, exec i s = .next t ∧ t.k = s.k + 1 ∧ t.status = s.status ∧
      holds s.rf t.rf Register.lo q ∧ holds s.rf t.rf Register.hi r := by
  obtain ⟨t, he, ⟨-, hk, hstatus, -⟩, -, hqr⟩ := h
  exact ⟨t, he, hk, hstatus, hqr hz⟩

variable [Decidable byZero]

/-- A success that keeps every register but `lo` and `hi` divides, a draw being taken exactly by zero (R101, R277). -/
theorem ExecResult.Keeps.divides {rf : RegFile} (h : (ExecResult.ok rf).Keeps [Register.lo, Register.hi] s.rf) :
    Divides byZero s ((s.drawIf (decide byZero)).retire rf) := by
  obtain ⟨hregs, -⟩ := h.of rf rfl
  exact ⟨⟨hregs, by simp, by simp⟩, by simp, by simp, fun hz => by simp [hz], fun hz => by simp [hz]⟩

theorem dividesTo_of_commits {a q r : BitVec n} {rf₀ rf₁ : RegFile}
    (he : exec i s = .next ((s.drawIf (decide byZero)).settle (if byZero then .ok rf₀ else .ok rf₁)))
    (hkeep₀ : (ExecResult.ok rf₀).Keeps [Register.lo, Register.hi] s.rf)
    (hkeep₁ : (ExecResult.ok rf₁).Keeps [Register.lo, Register.hi] s.rf)
    (h₀ : holds s.rf rf₀ Register.lo a ∧ rf₀.read Register.hi = Config.div0Hi s.draws)
    (h₁ : holds s.rf rf₁ Register.lo q ∧ holds s.rf rf₁ Register.hi r) : DividesTo holds i s byZero a q r := by
  by_cases hz : byZero
  · rw [if_pos hz] at he
    exact ⟨_, he, hkeep₀.divides, fun _ => h₀, absurd hz⟩
  · rw [if_neg hz] at he
    exact ⟨_, he, hkeep₁.divides, fun h => absurd h hz, fun _ => h₁⟩

theorem dividesTo_commitDiv32 {a q r : Word}
    (he : exec i s = .next ((s.drawIf (decide byZero)).settle
      (if byZero then commitDivZero32 Config.w32Hi (Config.div0Hi s.draws) a s.rf
        else commitDiv32 Config.w32Hi q r s.rf))) : DividesTo (Holds32 Config.w32Hi) i s byZero a q r :=
  dividesTo_of_commits he (keeps_commitDivZero32 ..) (keeps_commitDiv32 ..) (holds32_commitDivZero32 ..)
    (holds32_commitDiv32 ..)

theorem dividesTo_commitDiv64 {a q r : DWord}
    (he : exec i s = .next ((s.drawIf (decide byZero)).settle
      (if byZero then commitDiv64 a (Config.div0Hi s.draws) s.rf else commitDiv64 q r s.rf))) :
    DividesTo Holds64 i s byZero a q r := by
  obtain ⟨hlo₀, hhi₀⟩ := read_commitDiv64 s.rf a (Config.div0Hi s.draws)
  obtain ⟨hlo₁, hhi₁⟩ := read_commitDiv64 s.rf q r
  exact dividesTo_of_commits he (keeps_commitDiv64 ..) (keeps_commitDiv64 ..) ⟨.of_read (by decide) hlo₀, hhi₀⟩
    ⟨.of_read (by decide) hlo₁, .of_read (by decide) hhi₁⟩

end

section
variable (rs rt rd : Register) (shamt : BitVec 5) (s : State)

theorem exec_div :
    let a := (s.rf.readLo rs).toInt
    let b := (s.rf.readLo rt).toInt
    DividesTo (Holds32 Config.w32Hi) (.div rs rt rd shamt) s (b = 0) (BitVec.ofInt 32 a) (BitVec.ofInt 32 (a.tdiv b))
      (BitVec.ofInt 32 (a - a.tdiv b * b)) := dividesTo_commitDiv32 rfl

theorem exec_divu :
    let a := (s.rf.readLo rs).toNat
    let b := (s.rf.readLo rt).toNat
    DividesTo (Holds32 Config.w32Hi) (.divu rs rt rd shamt) s (b = 0) (BitVec.ofNat 32 a) (BitVec.ofNat 32 (a / b))
      (BitVec.ofNat 32 (a - a / b * b)) := dividesTo_commitDiv32 rfl

theorem exec_ddiv :
    let a := (s.rf.read rs).toInt
    let b := (s.rf.read rt).toInt
    DividesTo Holds64 (.ddiv rs rt rd shamt) s (b = 0) (BitVec.ofInt 64 a) (BitVec.ofInt 64 (a.tdiv b))
      (BitVec.ofInt 64 (a - a.tdiv b * b)) := dividesTo_commitDiv64 rfl

theorem exec_ddivu :
    let a := (s.rf.read rs).toNat
    let b := (s.rf.read rt).toNat
    DividesTo Holds64 (.ddivu rs rt rd shamt) s (b = 0) (BitVec.ofNat 64 a) (BitVec.ofNat 64 (a / b))
      (BitVec.ofNat 64 (a - a / b * b)) := dividesTo_commitDiv64 rfl

end

/-- Settles O31: the R arm at the code of DIV, and a 32-bit division of the signed lo halves. -/
theorem divResult : Obligations.DivResult := by
  unfold Obligations.DivResult
  exact ⟨fun w => decode_of_func .div, exec_div⟩

/-- Settles O32: a 32-bit division of the unsigned lo halves. -/
theorem divuResult : Obligations.DivuResult := by
  unfold Obligations.DivuResult
  exact ⟨fun w => decode_of_func .divu, exec_divu⟩

/-- Settles O33: the R arm at the code of DDIV, and a 64-bit division of the signed registers. -/
theorem ddivResult : Obligations.DdivResult := by
  unfold Obligations.DdivResult
  exact ⟨fun w => decode_of_func .ddiv, exec_ddiv⟩

/-- Settles O34: a 64-bit division of the unsigned registers. -/
theorem ddivuResult : Obligations.DdivuResult := by
  unfold Obligations.DdivuResult
  exact ⟨fun w => decode_of_func .ddivu, exec_ddivu⟩

/-- Settles O35: each division by a nonzero divisor, and the law of its quotient and remainder. -/
theorem divisionLaw : Obligations.DivisionLaw := by
  unfold Obligations.DivisionLaw
  intro rs rt rd shamt s
  refine ⟨fun h => ?div, fun h => ?divu, fun h => ?ddiv, fun h => ?ddivu⟩
  case div =>
    have hb := mt toInt_eq_zero_iff.1 h
    obtain ⟨t, he, -, -, hlo, hhi⟩ := (exec_div rs rt rd shamt s).of_nonzero hb
    obtain ⟨hsum, hsize, hsign⟩ := signed_division_law (s.rf.readLo rs).toInt hb
    exact ⟨t, _, _, he, hsum, hsize, hsign, hlo.readLo_eq (by decide), hhi.readLo_eq (by decide)⟩
  case divu =>
    have hb := mt toNat_eq_zero_iff.1 h
    obtain ⟨t, he, -, -, hlo, hhi⟩ := (exec_divu rs rt rd shamt s).of_nonzero hb
    obtain ⟨hsum, hsize⟩ := unsigned_division_law (s.rf.readLo rs).toNat hb
    exact ⟨t, _, _, he, hsum, hsize, hlo.readLo_eq (by decide), hhi.readLo_eq (by decide)⟩
  case ddiv =>
    have hb := mt toInt_eq_zero_iff.1 h
    obtain ⟨t, he, -, -, hlo, hhi⟩ := (exec_ddiv rs rt rd shamt s).of_nonzero hb
    obtain ⟨hsum, hsize, hsign⟩ := signed_division_law (s.rf.read rs).toInt hb
    exact ⟨t, _, _, he, hsum, hsize, hsign, hlo.read_eq (by decide), hhi.read_eq (by decide)⟩
  case ddivu =>
    have hb := mt toNat_eq_zero_iff.1 h
    obtain ⟨t, he, -, -, hlo, hhi⟩ := (exec_ddivu rs rt rd shamt s).of_nonzero hb
    obtain ⟨hsum, hsize⟩ := unsigned_division_law (s.rf.read rs).toNat hb
    exact ⟨t, _, _, he, hsum, hsize, hlo.read_eq (by decide), hhi.read_eq (by decide)⟩

/-- Settles O36: the quotient is `2^(N-1)`, whose pattern is that of `-2^(N-1)`, and the remainder is 0. -/
theorem divisionQuotientWraps : Obligations.DivisionQuotientWraps := by
  unfold Obligations.DivisionQuotientWraps
  refine fun rs rt rd shamt s => ⟨fun ha hb => ?div, fun ha hb => ?ddiv⟩
  case div =>
    obtain ⟨t, he, hk, hstatus, hlo, hhi⟩ := (exec_div rs rt rd shamt s).of_nonzero (by rw [hb]; decide)
    rw [ha, hb] at hlo hhi
    exact ⟨t, he, (hlo.readLo_eq (by decide)).trans (by decide), (hhi.readLo_eq (by decide)).trans (by decide), hk,
      hstatus⟩
  case ddiv =>
    obtain ⟨t, he, hk, hstatus, hlo, hhi⟩ := (exec_ddiv rs rt rd shamt s).of_nonzero (by rw [hb]; decide)
    rw [ha, hb] at hlo hhi
    exact ⟨t, he, (hlo.read_eq (by decide)).trans (by decide), (hhi.read_eq (by decide)).trans (by decide), hk, hstatus⟩

/-- Settles O37: by zero `lo` takes the pattern of the dividend's value, which is the view of `rs` itself. -/
theorem divisionByZero : Obligations.DivisionByZero := by
  unfold Obligations.DivisionByZero
  exact fun rs rt rd shamt s =>
    ⟨fun h => ⟨(exec_div rs rt rd shamt s).of_zero (toInt_eq_zero_iff.2 h) BitVec.ofInt_toInt,
        (exec_divu rs rt rd shamt s).of_zero (toNat_eq_zero_iff.2 h) ofNat_toNat_self⟩,
      fun h => ⟨(exec_ddiv rs rt rd shamt s).of_zero (toInt_eq_zero_iff.2 h) BitVec.ofInt_toInt,
        (exec_ddivu rs rt rd shamt s).of_zero (toNat_eq_zero_iff.2 h) ofNat_toNat_self⟩⟩

end Machine

end Sys2Proof
end

section
/-! SUPPORT. The R functions outside the dispatch table of R80: the word decodes, the instruction is refused (R106). The
obligation O46 follows. -/

namespace Sys2Proof.Machine

/-- An R-format instruction is in the dispatch table exactly by its function (R80), so one whose function is not there is
refused (R83). -/
theorem exec_of_rFunc_not_executed {f : RFunc} (hf : f.isExecuted = false) {i : Instr} {rs rt rd : Register}
    {shamt : BitVec 5} (hi : i.shape = .r rs rt rd shamt f) (s : State) : exec i s = .next (Refused i s) := by
  have hno : i.shape.isExecuted = false := by rw [hi]; exact hf
  exact exec_of_not_executed hno s

/-- Settles O46: each function named is outside the dispatch table, a finite check; its code selects the R arm, which
builds the shape. -/
theorem rFormatDecodeOnly : Obligations.RFormatDecodeOnly := by
  unfold Obligations.RFormatDecodeOnly
  intro f hmem
  have hno : f.isExecuted = false := by
    revert f
    decide
  refine ⟨fun w hop hfunc => ?decodes, fun i rs rt rd shamt s hi => exec_of_rFunc_not_executed hno hi s⟩
  case decodes => exact ⟨_, decode_of_func f hop hfunc, RFunc.shape_instr ..⟩

end Sys2Proof.Machine
end

section
/-! SUPPORT. The COP1 instructions are outside the dispatch table of R80: the word decodes, the instruction is refused
(R151). The obligation O47 follows. -/

namespace Sys2Proof.Machine

/-- A shape that `decodeShape` answers is that of the decoded instruction (R69). -/
theorem exists_instr_of_decodeShape {w : Word} {sh : Shape} (h : decodeShape w = .ok sh) :
    ∃ i, decode w = .ok i ∧ i.shape = sh := by
  cases hd : decode w with
  | ok i => exact ⟨i, rfl, Except.ok.inj ((decodeShape_ok hd rfl).symm.trans h)⟩
  | unknownEncoding f c => exact nomatch (decodeShape_error hd).symm.trans h

/-- No FR shape is in the dispatch table (R80), so every COP1 instruction is refused (R83). -/
theorem exec_of_fr {i : Instr} {m : Cop1Fmt} {ft fs fd : FPRegister} {f : FrFunc} {nd tf : Option Bool}
    (hi : i.shape = .fr m ft fs fd f nd tf) (s : State) : exec i s = .next (Refused i s) := by
  have hno : i.shape.isExecuted = false := by rw [hi]; rfl
  exact exec_of_not_executed hno s

/-- Settles O47: the fields are those of the shape that O9 gives for each kind of format, and no FR shape is executed. -/
theorem cop1DecodeOnly : Obligations.Cop1DecodeOnly := by
  unfold Obligations.Cop1DecodeOnly
  refine ⟨fun w m hop hm => ?decodes, fun i m ft fs fd f nd tf s hi => exec_of_fr hi s⟩
  case decodes =>
    obtain ⟨harith, -, hmove, hbc⟩ := decodesFrFields w hop m hm
    exact ⟨fun a f ha hf => exists_instr_of_decodeShape (harith a f ha hf),
      fun ha hb => exists_instr_of_decodeShape (hmove ha hb),
      fun hb => exists_instr_of_decodeShape (hbc hb).1⟩

end Sys2Proof.Machine
end

section
/-! SUPPORT. The J-format instructions are outside the dispatch table of R80, so both jumps are refused (R198 to R200). The
obligation O48 follows. -/

namespace Sys2Proof.Machine

/-- No J shape is in the dispatch table (R80), so a jump is refused whatever its field (R83). -/
theorem exec_of_j {i : Instr} {op : JOpcode} {addr : BitVec 26} (hi : i.shape = .j op addr) (s : State) :
    exec i s = .next (Refused i s) := by
  have hno : i.shape.isExecuted = false := by rw [hi]; rfl
  exact exec_of_not_executed hno s

/-- Settles O48: J and JAL have the J shape, with their own opcode. -/
theorem jumpsDecodeOnly : Obligations.JumpsDecodeOnly := by
  unfold Obligations.JumpsDecodeOnly
  intro addr s
  have hj : (Instr.j addr).shape = .j .j addr := rfl
  have hjal : (Instr.jal addr).shape = .j .jal addr := rfl
  exact ⟨exec_of_j hj s, exec_of_j hjal s⟩

end Sys2Proof.Machine
end

section
/-! SUPPORT. The I-format instructions outside the dispatch table of R80, the REGIMM class among them: the word decodes, the
instruction is refused (R201, R243). The obligations O49 and O50 follow. -/

namespace Sys2Proof

/-- The I-format opcodes of the dispatch table (R80), as a list. -/
theorem IOpcode.isExecuted_iff_mem (op : IOpcode) :
    op.isExecuted = true ↔ op ∈ [IOpcode.addi, .addiu, .daddi, .daddiu] := by
  cases op <;> decide

end Sys2Proof

namespace Sys2Proof.Machine

/-- An I-format instruction is in the dispatch table exactly by its opcode (R80), so one whose opcode is not there is
refused (R83). -/
theorem exec_of_iOpcode_not_executed {op : IOpcode} (hop : op.isExecuted = false) {i : Instr} {rs rt : Register}
    {imm immU : BitVec 32} {c : Option RegimmCode} (hi : i.shape = .i op rs rt imm immU c) (s : State) :
    exec i s = .next (Refused i s) := by
  have hno : i.shape.isExecuted = false := by rw [hi]; exact hop
  exact exec_of_not_executed hno s

/-- Settles O49: an opcode outside the list is neither REGIMM, so the word has the shape that O11 gives, nor in the dispatch
table. -/
theorem iFormatDecodeOnly : Obligations.IFormatDecodeOnly := by
  unfold Obligations.IFormatDecodeOnly
  intro op hmem
  obtain ⟨hregimm, htable⟩ := not_or.1 (mt List.mem_cons.2 hmem)
  have hno : op.isExecuted = false := Bool.eq_false_iff.2 (mt op.isExecuted_iff_mem.1 htable)
  refine ⟨fun w hop => ?decodes, fun i rs rt imm immU c s hi => exec_of_iOpcode_not_executed hno hi s⟩
  case decodes =>
    obtain ⟨hplain, -, -⟩ := decodesIFields w op (hop ▸ Opcode.lookup_i op)
    exact exists_instr_of_decodeShape (hplain hregimm)

/-- Settles O50: a code of the closed set gives the shape of O11, any other code the fault, and REGIMM is not in the dispatch
table. -/
theorem regimmDecodeOnly : Obligations.RegimmDecodeOnly := by
  unfold Obligations.RegimmDecodeOnly
  refine ⟨fun w hop => ⟨fun c hc => ?known, fun hc => ?unknown⟩,
    fun i rs rt imm immU c s hi => exec_of_iOpcode_not_executed rfl hi s⟩
  case known =>
    obtain ⟨-, hregimm, -⟩ := decodesIFields w .regimm (hop ▸ Opcode.lookup_i .regimm)
    exact exists_instr_of_decodeShape (hregimm rfl c hc)
  case unknown => exact (decode_of_iOpcode .regimm hop).trans (decodeI_regimm_none hc)

end Sys2Proof.Machine
end

section
/-! SUPPORT. Where `OverflowFault` comes from (R260): from a running state it is recorded by the trapping additions alone, when
the exact sum leaves their range, and with nothing else changed. The obligation O41 follows. -/

namespace Sys2Proof.Machine

section
variable {i : Instr} {s : State} (hs : s.status = .running)
include hs

/-- Of the three ends of an instruction (`Ends`) only one records the fault. -/
theorem status_overflowFault_iff {t : State} (he : exec i s = .next t) :
    t.status = .halted (.fault .overflowFault) ↔ t = Overflowed s := by
  refine ⟨fun ht => ?_, fun ht => ht ▸ rfl⟩
  cases ends_of_exec he with
  | retired b rf => simp [hs] at ht
  | overflowed => rfl
  | refused => exact nomatch ht

/-- The driver records the fault only for the result of that name (R277). -/
theorem result_of_overflowed {r : ExecResult} (hr : exec i s = .next (s.settle r))
    (ho : exec i s = .next (Overflowed s)) : r = .overflowFault := by
  have hnext : s.settle r = Overflowed s := Host.Outcome.next.inj (hr.symm.trans ho)
  have hstatus : (s.settle r).status = .halted (.fault .overflowFault) := congrArg State.status hnext
  cases r with
  | ok rf => exact nomatch hs.symm.trans hstatus
  | overflowFault => rfl
  | unimplemented j => exact nomatch hstatus

theorem exec_addTrap32_overflowed_iff {dst : Register} {a b : Int}
    (hr : exec i s = .next (s.settle (addTrap32 Config.w32Hi dst a b s.rf))) :
    exec i s = .next (Overflowed s) ↔ ¬ InRange32 (a + b) :=
  ⟨fun ho hin => absurd ((addTrap32_of_inRange _ hin).symm.trans (result_of_overflowed hs hr ho)) nofun,
    (exec_addTrap32 hr).2⟩

theorem exec_addTrap64_overflowed_iff {dst : Register} {a b : Int}
    (hr : exec i s = .next (s.settle (addTrap64 dst a b s.rf))) :
    exec i s = .next (Overflowed s) ↔ ¬ InRange64 (a + b) :=
  ⟨fun ho hin => absurd ((addTrap64_of_inRange hin).symm.trans (result_of_overflowed hs hr ho)) nofun,
    (exec_addTrap64 hr).2⟩

theorem not_overflowed_of_division (hdiv : i.shape.isDivision = true) : exec i s ≠ .next (Overflowed s) :=
  fun ho => nomatch ((ends_of_exec ho).division hdiv).2.trans hs

theorem not_overflowed_of_not_executed (hexec : i.shape.isExecuted = false) : exec i s ≠ .next (Overflowed s) :=
  fun ho => nomatch result_of_overflowed (r := .unimplemented i) hs (exec_of_not_executed hexec s) ho

/-! The four that raise the fault, each by its exact sum. -/

theorem exec_add_overflowed_iff (rs rt rd : Register) (shamt : BitVec 5) :
    exec (.add rs rt rd shamt) s = .next (Overflowed s) ↔
      ¬ InRange32 ((s.rf.readLo rs).toInt + (s.rf.readLo rt).toInt) :=
  exec_addTrap32_overflowed_iff hs rfl

theorem exec_addi_overflowed_iff (rs rt : Register) (imm : BitVec 16) :
    exec (.addi rs rt imm) s = .next (Overflowed s) ↔ ¬ InRange32 ((s.rf.readLo rs).toInt + imm.toInt) := by
  rw [← immInt_eq imm]
  exact exec_addTrap32_overflowed_iff hs rfl

theorem exec_dadd_overflowed_iff (rs rt rd : Register) (shamt : BitVec 5) :
    exec (.dadd rs rt rd shamt) s = .next (Overflowed s) ↔
      ¬ InRange64 ((s.rf.read rs).toInt + (s.rf.read rt).toInt) :=
  exec_addTrap64_overflowed_iff hs rfl

theorem exec_daddi_overflowed_iff (rs rt : Register) (imm : BitVec 16) :
    exec (.daddi rs rt imm) s = .next (Overflowed s) ↔ ¬ InRange64 ((s.rf.read rs).toInt + imm.toInt) := by
  rw [← immInt_eq imm]
  exact exec_addTrap64_overflowed_iff hs rfl

end

/-- Settles O41: by the instruction. A trapping addition overflows exactly by its sum; the wrapping additions and the divisions
complete, and every other instruction is refused. -/
theorem overflowFaultRaisers : Obligations.OverflowFaultRaisers := by
  unfold Obligations.OverflowFaultRaisers
  refine fun i s t hs he => ⟨⟨fun ht => ?raiser, fun h => ?raised⟩, (status_overflowFault_iff hs he).1⟩
  case raiser =>
    obtain rfl := (status_overflowFault_iff hs he).1 ht
    cases i
    case add rs rt rd shamt => exact .inl ⟨_, _, _, _, rfl, (exec_add_overflowed_iff hs ..).1 he⟩
    case addi rs rt imm => exact .inr (.inl ⟨_, _, _, rfl, (exec_addi_overflowed_iff hs ..).1 he⟩)
    case dadd rs rt rd shamt => exact .inr (.inr (.inl ⟨_, _, _, _, rfl, (exec_dadd_overflowed_iff hs ..).1 he⟩))
    case daddi rs rt imm => exact .inr (.inr (.inr ⟨_, _, _, rfl, (exec_daddi_overflowed_iff hs ..).1 he⟩))
    case addu | addiu | daddu | daddiu => exact absurd (result_of_overflowed hs rfl he) nofun
    case div | divu | ddiv | ddivu => exact absurd he (not_overflowed_of_division hs rfl)
    all_goals exact absurd he (not_overflowed_of_not_executed hs rfl)
  case raised =>
    have ho : exec i s = .next (Overflowed s) := by
      obtain ⟨rs, rt, rd, shamt, rfl, hsum⟩ | ⟨rs, rt, imm, rfl, hsum⟩ | ⟨rs, rt, rd, shamt, rfl, hsum⟩ |
        ⟨rs, rt, imm, rfl, hsum⟩ := h
      · exact (exec_add_overflowed_iff hs ..).2 hsum
      · exact (exec_addi_overflowed_iff hs ..).2 hsum
      · exact (exec_dadd_overflowed_iff hs ..).2 hsum
      · exact (exec_daddi_overflowed_iff hs ..).2 hsum
    cases he.symm.trans ho
    rfl

end Sys2Proof.Machine
end

section
/-! SUPPORT. The reference driver's step over a run (R277 to R279): one step of a running state advances the index or ends the
run, an ended run stays, and executing the decoded words in order follows the steps. The obligations O51 to O55 follow. -/

namespace Sys2Proof.Machine

theorem step_of_not_running {s : State} (h : s.status ≠ .running) : step s = .next s := by
  rcases hs : s.status with _ | _ | o
  · exact absurd hs h
  · exact step_of_over (fetch_done hs)
  · exact step_of_over (fetch_halted hs)

/-- Settles O53: no status but running goes on, and `decode` refuses the index beyond the end. -/
theorem endedRunStays : Obligations.EndedRunStays := by
  unfold Obligations.EndedRunStays
  exact fun s => ⟨step_of_not_running, fun hs hk => step_of_over (fetch_beyond hs hk)⟩

/-- Settles O51: the word is fetched for execution, and the decoder gives well-formed instructions alone. -/
theorem stepRunsDecodedInstruction : Obligations.StepRunsDecodedInstruction := by
  unfold Obligations.StepRunsDecodedInstruction
  exact fun s i hk hs hd => ⟨wellFormed_of_decode hd, step_of_execute (fetch_execute hs hk hd)⟩

section
variable {i : Instr} {s t : State}

/-- The instruction words are fixed for the run (R41). -/
theorem exec_words (h : exec i s = .next t) : t.words = s.words := by
  cases ends_of_exec h with
  | retired b rf => simp
  | overflowed | refused => rfl

theorem exec_advances_or_halts (hs : s.status = .running) (h : exec i s = .next t) :
    (t.k = s.k + 1 ∧ t.status = .running) ∨ t = Overflowed s ∨ t = Refused i s := by
  cases ends_of_exec h with
  | retired b rf => exact .inl (by simp [hs])
  | overflowed => exact .inr (.inl rfl)
  | refused => exact .inr (.inr rfl)

end

/-- Settles O52: the cases of `fetch`, and `exec_advances_or_halts` for the word that decodes. -/
theorem driverStep : Obligations.DriverStep := by
  unfold Obligations.DriverStep
  refine ⟨fun p words => ⟨rfl, rfl, rfl, rfl⟩, fun s hs => ⟨?atEnd, ?undecodable, ?decodes⟩⟩
  case atEnd => exact fun hk => step_of_over (fetch_end hs hk)
  case undecodable => exact fun hk f c hd => step_of_over (fetch_unknown hs hk hd)
  case decodes =>
    intro hk i hd
    obtain ⟨t, he, -⟩ := exec_ends i s
    exact ⟨t, he, (step_of_execute (fetch_execute hs hk hd)).trans he, exec_words he, exec_seqs he,
      exec_advances_or_halts hs he⟩

theorem run_succ_of_step {M : Host.Core} {s t : M.State} (n : Nat) (h : M.step s = .next t) :
    M.run (n + 1) s = M.run n t := by
  rw [Host.Core.run, h]

section
variable {s t : State}

theorem step_words (h : step s = .next t) : t.words = s.words := by
  rcases step_cases s with ⟨-, hstep⟩ | ⟨-, -, hstep⟩ | ⟨-, -, hstep⟩ | ⟨-, f, c, -, -, hstep⟩ | ⟨-, i, -, -, hstep⟩
  · cases hstep.symm.trans h; rfl
  · cases hstep.symm.trans h; rfl
  · cases hstep.symm.trans h
  · cases hstep.symm.trans h; rfl
  · exact exec_words (hstep.symm.trans h)

/-- Only an index beyond the end is answered with anything but a next state. -/
theorem exists_step_next (hk : s.k ≤ s.words.length) : ∃ t, step s = .next t := by
  rcases step_cases s with ⟨-, hstep⟩ | ⟨-, -, hstep⟩ | ⟨-, hbeyond, -⟩ | ⟨-, f, c, -, -, hstep⟩ | ⟨-, i, -, -, hstep⟩
  · exact ⟨_, hstep⟩
  · exact ⟨_, hstep⟩
  · exact absurd hk (Nat.not_le_of_lt hbeyond)
  · exact ⟨_, hstep⟩
  · obtain ⟨t, he, -⟩ := exec_ends i s
    exact ⟨t, hstep.trans he⟩

theorem step_advances_or_ends (hs : s.status = .running) (h : step s = .next t) :
    (t.k = s.k + 1 ∧ t.status = .running) ∨ (t.k = s.k ∧ Ended t) := by
  rcases step_cases s with ⟨hne, -⟩ | ⟨-, hk, hstep⟩ | ⟨-, -, hstep⟩ | ⟨-, f, c, -, -, hstep⟩ | ⟨-, i, -, -, hstep⟩
  · exact absurd hs hne
  · cases hstep.symm.trans h; exact .inr ⟨rfl, .inl ⟨rfl, hk⟩⟩
  · cases hstep.symm.trans h
  · cases hstep.symm.trans h; exact .inr ⟨rfl, .inr ⟨_, rfl⟩⟩
  · obtain hadv | rfl | rfl := exec_advances_or_halts hs (hstep.symm.trans h)
    · exact .inl hadv
    · exact .inr ⟨rfl, .inr ⟨_, rfl⟩⟩
    · exact .inr ⟨rfl, .inr ⟨_, rfl⟩⟩

theorem Ended.not_running (h : Ended s) : s.status ≠ .running := by
  obtain ⟨hs, -⟩ | ⟨o, hs⟩ := h <;> simp [hs]

/-- Further steps leave an ended run as it is (log entry 3). -/
theorem run_of_ended (n : Nat) (h : Ended s) : core.run n s = .next s := by
  induction n with
  | zero => rfl
  | succ n ih => rw [run_succ_of_step (M := core) n (step_of_not_running h.not_running), ih]

end

/-- The part of `decode_all(words)` that a run at `s` has still to execute (R279). -/
def State.decodedRest (s : State) : List DecodeResult := (decodeAll s.words).drop s.k

section
variable {s t : State}

theorem State.decodedRest_of_end (hk : s.k = s.words.length) : s.decodedRest = [] := by
  simp [State.decodedRest, hk]

theorem State.decodedRest_of_lt (hk : s.k < s.words.length) :
    s.decodedRest = decode s.words[s.k] :: (decodeAll s.words).drop (s.k + 1) := by
  rw [State.decodedRest, List.drop_eq_getElem_cons (by simpa using hk)]
  simp [decodeAll]

theorem State.decodedRest_of_advance (hwords : t.words = s.words) (hk : t.k = s.k + 1) :
    t.decodedRest = (decodeAll s.words).drop (s.k + 1) := by
  rw [State.decodedRest, hwords, hk]

theorem runDecoded_ok {i : Instr} (he : exec i s = .next t) (ds : List DecodeResult) :
    runDecoded (.ok i :: ds) s = if t.status = .running then runDecoded ds t else t := by
  rw [runDecoded, he]

/-- Executing what is left of the decoded words follows the driver's step: from the next state it goes on with what is left
there, and it stops where the run has ended. -/
theorem runDecoded_of_step (hs : s.status = .running) (h : step s = .next t) :
    runDecoded s.decodedRest s = if t.status = .running then runDecoded t.decodedRest t else t := by
  rcases step_cases s with ⟨hne, -⟩ | ⟨-, hk, hstep⟩ | ⟨-, -, hstep⟩ | ⟨hk, f, c, -, hd, hstep⟩ | ⟨hk, i, -, hd, hstep⟩
  · exact absurd hs hne
  · cases hstep.symm.trans h; rw [State.decodedRest_of_end hk]; rfl
  · cases hstep.symm.trans h
  · cases hstep.symm.trans h; rw [State.decodedRest_of_lt hk, hd]; rfl
  · have he : exec i s = .next t := hstep.symm.trans h
    rw [State.decodedRest_of_lt hk, hd, runDecoded_ok he]
    rcases step_advances_or_ends hs h with ⟨hadv, -⟩ | ⟨-, hend⟩
    · rw [State.decodedRest_of_advance (exec_words he) hadv]
    · rw [if_neg hend.not_running, if_neg hend.not_running]

end

/-- One step more than there are words left ends the run, in the state that executing those words decoded gives: by induction
on the words left, of which an advancing step takes one. -/
theorem run_to_end {n : Nat} {s : State} (hs : s.status = .running) (hn : s.words.length = s.k + n) :
    core.run (n + 1) s = .next (runDecoded s.decodedRest s) ∧ Ended (runDecoded s.decodedRest s) := by
  induction n generalizing s with
  | zero =>
    rw [run_succ_of_step (M := core) 0 (step_of_over (fetch_end hs hn.symm)), State.decodedRest_of_end hn.symm]
    exact ⟨rfl, .inl ⟨rfl, hn.symm⟩⟩
  | succ n ih =>
    obtain ⟨t, ht⟩ := exists_step_next (s := s) (by omega)
    rw [run_succ_of_step (M := core) _ ht, runDecoded_of_step hs ht]
    rcases step_advances_or_ends hs ht with ⟨hk, hrun⟩ | ⟨-, hend⟩
    · rw [if_pos hrun]
      exact ih hrun (by rw [step_words ht]; omega)
    · rw [if_neg hend.not_running]
      exact ⟨run_of_ended _ hend, hend⟩

/-- Settles O54: `run_to_end` for the bound, `step_advances_or_ends` for the single step. -/
theorem runTerminates : Obligations.RunTerminates := by
  unfold Obligations.RunTerminates
  refine ⟨fun s hs hk => ?_, fun s t hs h => step_advances_or_ends hs h⟩
  obtain ⟨hrun, hend⟩ := run_to_end hs (Nat.add_sub_cancel' hk).symm
  exact ⟨_, _, Nat.le_refl _, hrun, hend⟩

/-- Settles O55: `run_to_end`, where at the start nothing has been executed. -/
theorem decodeAheadEquivalence : Obligations.DecodeAheadEquivalence := by
  unfold Obligations.DecodeAheadEquivalence
  refine ⟨fun s hs hk => (run_to_end hs (Nat.add_sub_cancel' hk).symm).1, fun p words => ?_⟩
  exact (run_to_end (s := State.start p words) rfl (Nat.zero_add _).symm).1

end Sys2Proof.Machine
end
